-- ==== Sys2Proof/Word.lean ====
section
/-! DEFINITION. Words, bytes, word addresses and flag sets of the FFT256 block (00_scope.md R8, R18). -/

namespace Sys2Proof

/-- A 32-bit word, bit 0 least significant (R8, R18). -/
abbrev Word := BitVec 32

/-- One byte of the input byte stream (R75). -/
abbrev Byte := BitVec 8

/-- The word address `addr[12:2]` that the port carries (R72). -/
abbrev WordAddr := BitVec 11

/-- A byte address of the block's 13-bit address space (R18, R70). -/
abbrev ByteAddr := BitVec 13

/-- A set of IEEE flags at the FPFLAGS bit positions of R36. -/
abbrev FlagSet := BitVec 5

end Sys2Proof
end

