-- ==== Sys2Proof/Config.lean ====
section
/-! DEFINITION. The fixed parameters of FFT256 version 1.0 (00_scope.md R7) and its register map (10_state.md R23, 20_memory.md R71). -/

namespace Sys2Proof.Config

/-- ID reads this and nothing else (R24). -/
def idWord : Word := 0x46540100#32

/-- PARAM reads this and nothing else (R25). -/
def paramWord : Word := 0x00800100#32

/-- `FFT_SIZE` (R7). -/
def fftSize : Nat := 256

/-- `NUM_MAG` and `NUM_BINS` (R7); also the length OUT_LEN shows after a non-empty run (R33). -/
def numBins : Nat := 128

/-- BYTE_COUNT saturates here (R7, R31). -/
def byteCountMax : Word := 0xFFFFFFFF#32

/-- The register offsets of R23. -/
def offId : Nat := 0x0000
def offParam : Nat := 0x0004
def offCtrl : Nat := 0x0008
def offStatus : Nat := 0x000C
def offCmd : Nat := 0x0010
def offFeedW : Nat := 0x0014
def offFeedB : Nat := 0x0018
def offByteCount : Nat := 0x001C
def offSampleCount : Nat := 0x0020
def offOutLen : Nat := 0x0024
def offOpa : Nat := 0x0028
def offOpb : Nat := 0x002C
def offOpres : Nat := 0x0030
def offFpflags : Nat := 0x0034

/-- The window bases of R71. -/
def baseSample : Nat := 0x0400
def baseRe : Nat := 0x0800
def baseIm : Nat := 0x0C00
def baseMag : Nat := 0x1000
def baseOut : Nat := 0x1200
def baseBinlut : Nat := 0x1400
def baseHann : Nat := 0x1800
def baseTwc : Nat := 0x1C00
def baseTws : Nat := 0x1E00

/-- The offsets at which a write does something, the table of R106. -/
def writeOffsets : List Nat :=
  [offCtrl, offStatus, offCmd, offFeedW, offFeedB, offOpa, offOpb, offFpflags]

/-- The ten legal CMD words, the CMD rows of R110. -/
def cmdWords : List Word :=
  [0x00000000#32, 0x00000001#32, 0x00000002#32, 0x00000003#32, 0x00000103#32,
   0x00000203#32, 0x00000303#32, 0x00000403#32, 0x00000503#32, 0x00000603#32]

end Sys2Proof.Config
end

