-- ==== Sys2Proof/Syntax.lean ====
section
/-! DEFINITION. The operations of the opcode map (30_encoding.md R110), one constructor a row of the opcode table. -/

namespace Sys2Proof

/-- One host operation. The first ten are the CMD words, the others the BUS accesses, each with the
operands R107 gives it. -/
inductive Instr where
  /-- NOP, CMD 0x00000000 (R137). -/
  | nop
  /-- CLEAR, CMD 0x00000001 (R138). -/
  | clear
  /-- START, CMD 0x00000002 (R140). -/
  | start
  /-- FPOP.FADD, CMD 0x00000003 (R144). -/
  | fpopFadd
  /-- FPOP.FSUB, CMD 0x00000103 (R145). -/
  | fpopFsub
  /-- FPOP.FMUL, CMD 0x00000203 (R146). -/
  | fpopFmul
  /-- FPOP.FDIV, CMD 0x00000303 (R147). -/
  | fpopFdiv
  /-- FPOP.FSQRT, CMD 0x00000403 (R148). -/
  | fpopFsqrt
  /-- FPOP.FMAG, CMD 0x00000503 (R149). -/
  | fpopFmag
  /-- FPOP.FCLAMP, CMD 0x00000603 (R150). -/
  | fpopFclamp
  /-- WR.CTRL: write `v` at 0x0008 (R132). -/
  | wrCtrl (v : Word)
  /-- WR.STATUS: write `v` at 0x000C (R133). -/
  | wrStatus (v : Word)
  /-- WR.CMD: write `v` at 0x0010 (R136). -/
  | wrCmd (v : Word)
  /-- FEED_W: write `v` at 0x0014 (R143). -/
  | feedW (v : Word)
  /-- FEED_B: write `v` at 0x0018, of which `v[7:0]` is fed (R142). -/
  | feedB (v : Word)
  /-- WR.OPA: write `v` at 0x0028 (R134). -/
  | wrOpa (v : Word)
  /-- WR.OPB: write `v` at 0x002C (R134). -/
  | wrOpb (v : Word)
  /-- WR.FPFLAGS: write `v` at 0x0034 (R135). -/
  | wrFpflags (v : Word)
  /-- WR.IGNORED: write `v` at word address `a`, any offset R106 does not list (R151). -/
  | wrIgnored (a : WordAddr) (v : Word)
  /-- RD: read the word at word address `a` (R131). -/
  | rd (a : WordAddr)
  deriving DecidableEq, Repr

end Sys2Proof
end

