-- ==== Sys2Proof/WellFormed.lean ====
section
/-! DEFINITION. Which terms of Instr are the one reading of a bus access (30_encoding.md R106, R110). -/

namespace Sys2Proof

/-- The word address of byte offset `offset`: `addr[12:2]` (R72). -/
def wordAddr (offset : Nat) : WordAddr := BitVec.ofNat 11 (offset / 4)

/-- `a` is the address of a row of R106's write table. -/
def isWriteAddr (a : WordAddr) : Bool := (Config.writeOffsets.map wordAddr).contains a

/-- `v` is one of the ten CMD words of R110. -/
def isCmdWord (v : Word) : Bool := Config.cmdWords.contains v

/-- Each bus access has exactly one well-formed instruction: an ignored write is at an address R106 does
not list, and a write to CMD whose word is a legal command is written as that command (log 9). -/
def Instr.wellFormed : Instr → Bool
  | .nop => true
  | .clear => true
  | .start => true
  | .fpopFadd => true
  | .fpopFsub => true
  | .fpopFmul => true
  | .fpopFdiv => true
  | .fpopFsqrt => true
  | .fpopFmag => true
  | .fpopFclamp => true
  | .wrCtrl _ => true
  | .wrStatus _ => true
  | .wrCmd v => !isCmdWord v
  | .feedW _ => true
  | .feedB _ => true
  | .wrOpa _ => true
  | .wrOpb _ => true
  | .wrFpflags _ => true
  | .wrIgnored a _ => !isWriteAddr a
  | .rd _ => true

end Sys2Proof
end

