-- ==== Sys2Proof/Decode.lean ====
section
/-! DEFINITION. The two instruction formats (30_encoding.md R100), their decoders and the encoder. -/

namespace Sys2Proof

/-- One access at the port: a read has `we = 0` and no data, a write `we = 1` and a data word (R72, R100). -/
inductive BusAccess where
  | read (addr : WordAddr)
  | write (addr : WordAddr) (wdata : Word)
  deriving DecidableEq, Repr

/-- The FSEL values that name an operator (R103). -/
inductive FpSel where
  | fadd | fsub | fmul | fdiv | fsqrt | fmag | fclamp
  deriving DecidableEq, Repr

/-- A command that a legal CMD word encodes (R102, R103). -/
inductive Command where
  | nop
  | clear
  | start
  | fpop (sel : FpSel)
  deriving DecidableEq, Repr

/-- The error names of R262. -/
inductive ErrorCode where
  /-- CMD written with `OPC > 0x03`. -/
  | badOpc
  /-- CMD with nonzero reserved bits. -/
  | badRsv
  /-- FPOP with `FSEL > 6`. -/
  | badFsel
  /-- Any CMD write while BUSY. -/
  | cmdBusy
  /-- FEED_B or FEED_W while BUSY. -/
  | feedBusy
  deriving DecidableEq, Repr

/-- The ECODE value of an error (R262). -/
def errorCode : ErrorCode → BitVec 4
  | .badOpc => 1#4
  | .badRsv => 2#4
  | .badFsel => 3#4
  | .cmdBusy => 4#4
  | .feedBusy => 5#4

/-! ## Fields of the CMD word (R101) -/

def cmdOpc (v : Word) : BitVec 8 := v.extractLsb 7 0
def cmdFsel (v : Word) : BitVec 4 := v.extractLsb 11 8
def cmdRes (v : Word) : BitVec 20 := v.extractLsb 31 12
/-- `CMD[31:8]`, which must be 0 for NOP, CLEAR and START (R104). -/
def cmdHigh (v : Word) : BitVec 24 := v.extractLsb 31 8

/-- The operator of an FSEL value of R103 (`decodeCmd` has refused 7 to 15). -/
def fpSelOf (fsel : BitVec 4) : FpSel :=
  if fsel = 0#4 then .fadd
  else if fsel = 1#4 then .fsub
  else if fsel = 2#4 then .fmul
  else if fsel = 3#4 then .fdiv
  else if fsel = 4#4 then .fsqrt
  else if fsel = 5#4 then .fmag
  else .fclamp

/-- The CMD decoder: R105 after its BUSY check, in R105's order of checks. -/
def decodeCmd (v : Word) : Except ErrorCode Command :=
  if cmdOpc v > 0x03#8 then .error .badOpc
  else if cmdOpc v ≠ 0x03#8 ∧ cmdHigh v ≠ 0#24 then .error .badRsv
  else if cmdOpc v = 0x03#8 ∧ cmdRes v ≠ 0#20 then .error .badRsv
  else if cmdOpc v = 0x03#8 ∧ cmdFsel v > 6#4 then .error .badFsel
  else if cmdOpc v = 0x00#8 then .ok .nop
  else if cmdOpc v = 0x01#8 then .ok .clear
  else if cmdOpc v = 0x02#8 then .ok .start
  else .ok (.fpop (fpSelOf (cmdFsel v)))

/-- The row of the opcode table that a command is. -/
def commandInstr : Command → Instr
  | .nop => .nop
  | .clear => .clear
  | .start => .start
  | .fpop .fadd => .fpopFadd
  | .fpop .fsub => .fpopFsub
  | .fpop .fmul => .fpopFmul
  | .fpop .fdiv => .fpopFdiv
  | .fpop .fsqrt => .fpopFsqrt
  | .fpop .fmag => .fpopFmag
  | .fpop .fclamp => .fpopFclamp

/-- The BUS decoder (R106): total, every write R106 does not list is ignored. -/
def decodeBus : BusAccess → Instr
  | .read a => .rd a
  | .write a v =>
    if a = wordAddr Config.offCtrl then .wrCtrl v
    else if a = wordAddr Config.offStatus then .wrStatus v
    else if a = wordAddr Config.offCmd then .wrCmd v
    else if a = wordAddr Config.offFeedW then .feedW v
    else if a = wordAddr Config.offFeedB then .feedB v
    else if a = wordAddr Config.offOpa then .wrOpa v
    else if a = wordAddr Config.offOpb then .wrOpb v
    else if a = wordAddr Config.offFpflags then .wrFpflags v
    else .wrIgnored a v

/-- A write of `v` to CMD: the command `v` encodes, or WR.CMD where `v` is no legal command (log 9). -/
def decodeCmdWrite (v : Word) : Instr :=
  match decodeCmd v with
  | .ok c => commandInstr c
  | .error _ => .wrCmd v

/-- The whole decoder: the BUS format, and the CMD format inside a write to CMD (R100). -/
def decode : BusAccess → Instr
  | .read a => decodeBus (.read a)
  | .write a v => if a = wordAddr Config.offCmd then decodeCmdWrite v else decodeBus (.write a v)

/-- The CMD word of a CMD-format row (R110). -/
def encodeCmd : Command → Word
  | .nop => 0x00000000#32
  | .clear => 0x00000001#32
  | .start => 0x00000002#32
  | .fpop .fadd => 0x00000003#32
  | .fpop .fsub => 0x00000103#32
  | .fpop .fmul => 0x00000203#32
  | .fpop .fdiv => 0x00000303#32
  | .fpop .fsqrt => 0x00000403#32
  | .fpop .fmag => 0x00000503#32
  | .fpop .fclamp => 0x00000603#32

/-- The bus write that issues a command. -/
def commandAccess (c : Command) : BusAccess := .write (wordAddr Config.offCmd) (encodeCmd c)

/-- The encoder: the bus access of an operation (R106, R110). -/
def encode : Instr → BusAccess
  | .nop => commandAccess .nop
  | .clear => commandAccess .clear
  | .start => commandAccess .start
  | .fpopFadd => commandAccess (.fpop .fadd)
  | .fpopFsub => commandAccess (.fpop .fsub)
  | .fpopFmul => commandAccess (.fpop .fmul)
  | .fpopFdiv => commandAccess (.fpop .fdiv)
  | .fpopFsqrt => commandAccess (.fpop .fsqrt)
  | .fpopFmag => commandAccess (.fpop .fmag)
  | .fpopFclamp => commandAccess (.fpop .fclamp)
  | .wrCtrl v => .write (wordAddr Config.offCtrl) v
  | .wrStatus v => .write (wordAddr Config.offStatus) v
  | .wrCmd v => .write (wordAddr Config.offCmd) v
  | .feedW v => .write (wordAddr Config.offFeedW) v
  | .feedB v => .write (wordAddr Config.offFeedB) v
  | .wrOpa v => .write (wordAddr Config.offOpa) v
  | .wrOpb v => .write (wordAddr Config.offOpb) v
  | .wrFpflags v => .write (wordAddr Config.offFpflags) v
  | .wrIgnored a v => .write a v
  | .rd a => .read a

/-! ## The host's primitives (00_scope.md R12): the port drops address bits 1:0 (R72, R73) -/

/-- The word address of a byte address: the word at `a - (a mod 4)` (log 8). -/
def portAddr (a : ByteAddr) : WordAddr := a.extractLsb 12 2

/-- `MemRead(a, 4)`. -/
def memRead (a : ByteAddr) : BusAccess := .read (portAddr a)

/-- `MemWrite(a, 4, v)`. -/
def memWrite (a : ByteAddr) (v : Word) : BusAccess := .write (portAddr a) v

/-! ## The opcode table's numbering (log 10) -/

/-- The access that a table word stands for: a row of more than 16 bits is a CMD word, the data of a write to
CMD; a row of at most 16 bits is the byte offset of a BUS write whose data is zero. -/
def tableAccess (nbits w : Nat) : BusAccess :=
  if nbits > 16 then memWrite 0x0010#13 (BitVec.ofNat 32 w)
  else memWrite (BitVec.ofNat 13 w) 0#32

/-- What the format's own decoder reads from a table word: `decodeCmd` for a CMD row, `decodeBus` for a BUS row. -/
def decodeTableWord (nbits w : Nat) : Option Instr :=
  if nbits > 16 then
    match decodeCmd (BitVec.ofNat 32 w) with
    | .ok c => some (commandInstr c)
    | .error _ => none
  else some (decodeBus (tableAccess nbits w))

end Sys2Proof
end

