-- ==== Sys2Proof/Machine/State.lean ====
section
/-! DEFINITION. The state of the FFT256 block (spec/10_state.md), its faults and refusals, and its reset state (70_reset_and_hazards.md R291). -/

namespace Sys2Proof.Machine

/-- The Engine phase (R47). -/
inductive Phase where
  | idle
  | running
  deriving DecidableEq, Repr

/-- What happens to the block in one step (R16, R82): the events are totally ordered, and their order is an
input (log 1). -/
inductive Event where
  /-- The Host performs one access. -/
  | access (a : BusAccess)
  /-- The Engine has its turn: it completes the run in progress, and has no step when IDLE. -/
  | engine
  /-- A clock edge with `rst = 1`, and the access presented in that cycle if any (R290, R294, log 7). -/
  | rst (a : Option BusAccess)
  deriving DecidableEq, Repr

/-- The reasons the machine stops with a fault: none. No host access is aborted or faulted, and the run raises
nothing (60_exceptions.md R260, 20_memory.md R81). -/
inductive Fault where
  deriving DecidableEq, Repr

/-- The reasons the machine refuses an instruction. -/
inductive Refusal where
  /-- Raised by an arm of `exec` whose instruction has no meaning yet; no arm raises it now. Safe. -/
  | notModelled (mnemonic : String)
  deriving DecidableEq, Repr

/-- Everything the spec gives the block, and two fields of the model's own (`rdata`, `inputs`). -/
structure State where
  /-- CTRL.IE (R26). -/
  ie : Bool
  /-- CTRL.EIE (R26). -/
  eie : Bool
  /-- The Engine phase; STATUS.BUSY shows it (R27, R47). -/
  phase : Phase
  /-- STATUS.DONE (R27). -/
  done : Bool
  /-- STATUS.ERR (R27). -/
  err : Bool
  /-- STATUS.ECODE (R27, R262). -/
  ecode : BitVec 4
  /-- BYTE_COUNT (R31). -/
  byteCount : Word
  /-- The byte assembler ASM[0..2] (R46). -/
  asm : Vector Byte 3
  /-- OUT_LEN (R33). -/
  outLen : Word
  /-- OPA (R34). -/
  opa : Word
  /-- OPB (R34). -/
  opb : Word
  /-- OPRES (R35). -/
  opres : Word
  /-- FPFLAGS[4:0] (R36). -/
  fpflags : FlagSet
  /-- SAMPLE[0..255] (R38). -/
  sample : Vector Word 256
  /-- RE[0..255] (R39). -/
  re : Vector Word 256
  /-- IM[0..255] (R39). -/
  im : Vector Word 256
  /-- MAG[0..127] (R41). -/
  mag : Vector Word 128
  /-- OUT[0..127] (R42). -/
  out : Vector Word 128
  /-- The read data of the last host read (R72, log 4): the model's own field. -/
  rdata : Word
  /-- The events to come, first one next (log 1): the model's own field. -/
  inputs : List Event
  deriving DecidableEq, Repr

/-- The state after reset: R291, with the arrays at the 0x00000000 that R292 allows (log 5), no read yet
(log 4) and no event yet (log 1). -/
def State.reset : State where
  ie := false
  eie := false
  phase := .idle
  done := false
  err := false
  ecode := 0#4
  byteCount := 0#32
  asm := Vector.replicate 3 0#8
  outLen := 0#32
  opa := 0#32
  opb := 0#32
  opres := 0#32
  fpflags := 0#5
  sample := Vector.replicate 256 0#32
  re := Vector.replicate 256 0#32
  im := Vector.replicate 256 0#32
  mag := Vector.replicate 128 0#32
  out := Vector.replicate 128 0#32
  rdata := 0#32
  inputs := []

end Sys2Proof.Machine
end

