-- ==== Sys2Proof/Machine/Flags.lean ====
section
/-! DEFINITION. The IEEE flag sets, FPFLAGS, STATUS and irq computations (10_state.md R26, R27, R36, R48; 41_fp_operators.md R173). -/

namespace Sys2Proof.Machine

/-! ## Flag sets at the FPFLAGS bit positions (R36) -/

def flagNX : FlagSet := 0b00001#5
def flagUF : FlagSet := 0b00010#5
def flagOF : FlagSet := 0b00100#5
def flagDZ : FlagSet := 0b01000#5
def flagNV : FlagSet := 0b10000#5

/-- `{f}` if the condition holds, `{}` otherwise. -/
def flagIf (c : Bool) (f : FlagSet) : FlagSet := if c then f else 0#5

/-- FPFLAGS is sticky: an FPOP ORs its flag set in (R139, R173). -/
def accumulateFlags (old raised : FlagSet) : FlagSet := old ||| raised

/-- W1C of FPFLAGS: `FPFLAGS[4:0] & ~v[4:0]` (R135). -/
def clearFlags (old : FlagSet) (v : Word) : FlagSet := old &&& ~~~(v.extractLsb 4 0)

/-! ## STATUS, CTRL and irq -/

/-- STATUS.BUSY (R47). -/
def State.busy (s : State) : Bool := s.phase == .running

/-- The irq level, which STATUS.IRQ reads (R48, R267). -/
def State.irq (s : State) : Bool := (s.ie && s.done) || (s.eie && s.err)

/-- One bit as a bit vector. -/
def bit (b : Bool) : BitVec 1 := BitVec.ofBool b

/-- The word STATUS reads: `zext_32(ECODE || 0b0000 || IRQ || ERR || DONE || BUSY)` (R131). -/
def State.statusWord (s : State) : Word :=
  (s.ecode ++ 0b0000#4 ++ bit s.irq ++ bit s.err ++ bit s.done ++ bit s.busy).setWidth 32

/-- The word CTRL reads: `zext_32(EIE || IE)` (R131). -/
def State.ctrlWord (s : State) : Word := (bit s.eie ++ bit s.ie).setWidth 32

/-- The word FPFLAGS reads (R131). -/
def State.fpflagsWord (s : State) : Word := s.fpflags.setWidth 32

end Sys2Proof.Machine
end

