-- ==== Sys2Proof/Machine/Fp.lean ====
section
/-! DEFINITION. The binary32 operators of 41_fp_operators.md: format, rounding, and the operators under FPOP and the run. -/

namespace Sys2Proof.Machine

/-! ## Format (R170, R171) -/

/-- `s = w[31]`. -/
def fpSign (w : Word) : Bool := w.getLsbD 31
/-- `e = w[30:23]`. -/
def fpExp (w : Word) : BitVec 8 := w.extractLsb 30 23
/-- `f = w[22:0]`. -/
def fpFrac (w : Word) : BitVec 23 := w.extractLsb 22 0

def isNaN (w : Word) : Bool := fpExp w == 255#8 && fpFrac w != 0#23
/-- A NaN whose `f[22]` is 0. -/
def isSNaN (w : Word) : Bool := isNaN w && !(fpFrac w).getLsbD 22
def isInf (w : Word) : Bool := fpExp w == 255#8 && fpFrac w == 0#23
def isZero (w : Word) : Bool := fpExp w == 0#8 && fpFrac w == 0#23
/-- A zero, subnormal or normal word (R171). -/
def isFinite (w : Word) : Bool := fpExp w != 255#8

/-- The integer significand of a finite word: `f`, or `2^23 + f` for a normal word (R170). -/
def significand (w : Word) : Nat :=
  if fpExp w = 0#8 then (fpFrac w).toNat else 2 ^ 23 + (fpFrac w).toNat

/-- The exponent of the significand's unit: `-149`, or `e - 150` for a normal word (R170). -/
def unitExp (w : Word) : Int :=
  if fpExp w = 0#8 then -149 else (fpExp w).toNat - 150

/-- `val(w)`, the exact rational value of a finite word (R171). -/
def val (w : Word) : ℚ :=
  (if fpSign w then -1 else 1) * (significand w : ℚ) * (2 : ℚ) ^ (unitExp w)

/-- The word of sign `s`, biased exponent `e` and fraction `f` (R170). -/
def packWord (s : Bool) (e f : Nat) : Word := bit s ++ BitVec.ofNat 8 e ++ BitVec.ofNat 23 f

/-- The canonical NaN (R174). -/
def qNaN : Word := 0x7FC00000#32
/-- `inf(s)`. -/
def infWord (s : Bool) : Word := packWord s 255 0
/-- The zero of sign `s`. -/
def zeroWord (s : Bool) : Word := packWord s 0 0

/-- What an operator returns: `(word, flags)` (R10). -/
structure FpResult where
  w : Word
  flags : FlagSet
  deriving DecidableEq, Repr

/-! ## Rounding (R172) -/

/-- A non-negative exact magnitude: `n * 2^x` if `sticky` is false, and otherwise a real strictly between
`n * 2^x` and `(n + 1) * 2^x`, which is how a quotient or a root that is not a multiple of `2^x` is held
(R180, log 13). -/
structure Magnitude where
  n : Nat
  x : Int
  sticky : Bool
  deriving DecidableEq, Repr

/-- The nearest integer to a magnitude divided by `2^d` units, ties to the even integer. -/
def rneShift (n d : Nat) (sticky : Bool) : Nat :=
  let k := n / 2 ^ d
  let r := 2 * (n % 2 ^ d)
  if r > 2 ^ d ∨ (r = 2 ^ d ∧ (sticky = true ∨ k % 2 = 1)) then k + 1 else k

/-- `RNE(m / 2^q)` (R172). -/
def rneAt (m : Magnitude) (q : Int) : Nat :=
  if q ≤ m.x then m.n * 2 ^ (m.x - q).toNat else rneShift m.n (q - m.x).toNat m.sticky

/-- `N * 2^q != m`, for `N = RNE(m / 2^q)` (R172). -/
def inexactAt (m : Magnitude) (q : Int) : Bool :=
  m.sticky || (decide (m.x < q) && m.n % 2 ^ (q - m.x).toNat != 0)

/-- `floor(log2(m))` of a nonzero magnitude: no power of two lies strictly inside `(n, n + 1)` (R172). -/
def magLog2 (m : Magnitude) : Int := m.n.log2 + m.x

/-- `n * 2^a < 2^b`. -/
def belowPow2 (n : Nat) (a b : Int) : Bool :=
  if a ≤ b then decide (n < 2 ^ (b - a).toNat) else n == 0

/-- The part of `Round` after the rounding: carry, overflow, flags and packing (R172). -/
def finishRound (s : Bool) (N : Nat) (q : Int) (inexact tiny : Bool) : FpResult :=
  let N' := if N = 2 ^ 24 then 2 ^ 23 else N
  let q' := if N = 2 ^ 24 then q + 1 else q
  if q' + 150 ≥ 255 then ⟨infWord s, flagOF ||| flagNX⟩
  else
    let flags := flagIf inexact flagNX ||| flagIf (tiny && inexact) flagUF
    if N' < 2 ^ 23 then ⟨packWord s 0 N', flags⟩
    else ⟨packWord s (q' + 150).toNat (N' - 2 ^ 23), flags⟩

/-- `Round(s, m)`: to nearest, ties to even, tininess detected after rounding (R172). -/
def roundFp (s : Bool) (m : Magnitude) : FpResult :=
  if m.n = 0 ∧ m.sticky = false then ⟨zeroWord s, 0#5⟩
  else
    let E := magLog2 m
    let q := max E (-126) - 23
    let tiny := belowPow2 (rneAt m (E - 23)) (E - 23) (-126)
    finishRound s (rneAt m q) q (inexactAt m q) tiny

/-! ## Operators (R174 to R183) -/

/-- The result of an operator one of whose operands is a NaN (R174). -/
def nanResult (signalling : Bool) : FpResult := ⟨qNaN, flagIf signalling flagNV⟩

/-- The exact signed sum of two finite words, in units of `2^(sumExp a b)`. -/
def sumExp (a b : Word) : Int := min (unitExp a) (unitExp b)
def alignedInt (w : Word) (x : Int) : Int :=
  let n : Int := (significand w * 2 ^ (unitExp w - x).toNat : Nat)
  if fpSign w then -n else n
def exactSum (a b : Word) : Int := alignedInt a (sumExp a b) + alignedInt b (sumExp a b)

/-- `fadd32` (R176). -/
def fadd32 (a b : Word) : FpResult :=
  if isNaN a || isNaN b then nanResult (isSNaN a || isSNaN b)
  else if isInf a && isInf b && (fpSign a != fpSign b) then ⟨qNaN, flagNV⟩
  else if isInf a then ⟨a, 0#5⟩
  else if isInf b then ⟨b, 0#5⟩
  else if exactSum a b = 0 then
    ⟨zeroWord (isZero a && isZero b && fpSign a && fpSign b), 0#5⟩
  else roundFp (decide (exactSum a b < 0)) ⟨(exactSum a b).natAbs, sumExp a b, false⟩

/-- A word with its sign bit inverted. -/
def flipSign (w : Word) : Word := w ^^^ 0x80000000#32

/-- `fsub32` (R177). -/
def fsub32 (a b : Word) : FpResult := fadd32 a (flipSign b)

/-- `fmul32` (R178). -/
def fmul32 (a b : Word) : FpResult :=
  let s := fpSign a ^^ fpSign b
  if isNaN a || isNaN b then nanResult (isSNaN a || isSNaN b)
  else if isInf a || isInf b then
    if isZero a || isZero b then ⟨qNaN, flagNV⟩ else ⟨infWord s, 0#5⟩
  else roundFp s ⟨significand a * significand b, unitExp a + unitExp b, false⟩

/-- How many bits the dividend is moved up, so that the quotient of two significands has at least 26 bits. -/
def quotientBits : Nat := 50

/-- `|val(a) / val(b)|` for finite `a` and finite nonzero `b`, truncated with a sticky bit (log 13). -/
def quotient (a b : Word) : Magnitude :=
  let num := significand a * 2 ^ quotientBits
  ⟨num / significand b, unitExp a - unitExp b - quotientBits, num % significand b != 0⟩

/-- `fdiv32` (R179). -/
def fdiv32 (a b : Word) : FpResult :=
  let s := fpSign a ^^ fpSign b
  if isNaN a || isNaN b then nanResult (isSNaN a || isSNaN b)
  else if isInf a && isInf b then ⟨qNaN, flagNV⟩
  else if isInf a then ⟨infWord s, 0#5⟩
  else if isInf b then ⟨zeroWord s, 0#5⟩
  else if isZero b then
    if isZero a then ⟨qNaN, flagNV⟩ else ⟨infWord s, flagDZ⟩
  else roundFp s (quotient a b)

/-- The integer square root of `m`, given that it lies in `[r, r + 2^k)`: one bit a step. -/
def isqrtFrom : Nat → Nat → Nat → Nat
  | 0, r, _ => r
  | k + 1, r, m =>
    if (r + 2 ^ k) * (r + 2 ^ k) ≤ m then isqrtFrom k (r + 2 ^ k) m else isqrtFrom k r m

/-- The radicand moved up to an even exponent and by 52 more bits, so that its root has at least 26 bits. -/
def radicand (a : Word) : Nat :=
  significand a * 2 ^ (52 + (unitExp a % 2).toNat)

/-- `sqrt(val(a))` for a positive finite `a`, truncated with a sticky bit (R180, log 13). A radicand is below
`2^77`, so its root is below `2^39`. -/
def rootMagnitude (a : Word) : Magnitude :=
  let r := isqrtFrom 39 0 (radicand a)
  ⟨r, (unitExp a - unitExp a % 2) / 2 - 26, r * r != radicand a⟩

/-- `fsqrt32` (R180). -/
def fsqrt32 (a : Word) : FpResult :=
  if isNaN a then nanResult (isSNaN a)
  else if isZero a then ⟨a, 0#5⟩
  else if fpSign a then ⟨qNaN, flagNV⟩
  else if isInf a then ⟨a, 0#5⟩
  else roundFp false (rootMagnitude a)

/-- `fmag32`, the magnitude calculator: four rounded steps (R181). -/
def fmag32 (a b : Word) : FpResult :=
  let p := fmul32 a a
  let q := fmul32 b b
  let t := fadd32 p.w q.w
  let r := fsqrt32 t.w
  ⟨r.w, p.flags ||| q.flags ||| t.flags ||| r.flags⟩

/-- 1.0 (R10). -/
def oneWord : Word := 0x3F800000#32
/-- 4.0, the normalisation gain (R7, R10). -/
def fourWord : Word := 0x40800000#32

/-- `fclamp01` (R182). -/
def fclamp01 (a : Word) : FpResult :=
  if isNaN a then ⟨0x00000000#32, 0#5⟩
  else if isZero a || fpSign a then ⟨0x00000000#32, 0#5⟩
  else if a ≥ oneWord then ⟨oneWord, 0#5⟩
  else ⟨a, 0#5⟩

/-- `u2f(n)` (R183). -/
def u2f (n : Nat) : Word := (roundFp false ⟨n, 0, false⟩).w

end Sys2Proof.Machine
end

