-- ==== Sys2Proof/Machine/Rom.lean ====
section
/-! DEFINITION. The constant tables of 43_constant_tables.md: HANN, TWC, TWS, BINLUT and the bit reversal. No operation changes them (R245). -/

namespace Sys2Proof.Machine

/-! ## The Hann window ROM (R240), in pieces of 32 words -/

def hannRom0 : List Word :=
  [0x00000000#32, 0x391DE7DF#32, 0x3A1DE1C8#32, 0x3AB19298#32, 0x3B1DC971#32, 0x3B766E3C#32, 0x3BB15502#32, 0x3BF1360B#32,
   0x3C1D6830#32, 0x3C470C54#32, 0x3C758104#32, 0x3C945F8C#32, 0x3CB05F55#32, 0x3CCEBB8A#32, 0x3CEF6F7E#32, 0x3D093B12#32,
   0x3D1BE50C#32, 0x3D2FB2CC#32, 0x3D44A143#32, 0x3D5AAD38#32, 0x3D71D344#32, 0x3D8507EA#32, 0x3D91AF97#32, 0x3D9EDEB5#32,
   0x3DAC933B#32, 0x3DBACB0C#32, 0x3DC983F7#32, 0x3DD8BBB7#32, 0x3DE86FF3#32, 0x3DF89E3F#32, 0x3E04A20E#32, 0x3E0D2F7D#32]

def hannRom32 : List Word :=
  [0x3E15F61A#32, 0x3E1EF48B#32, 0x3E28296D#32, 0x3E319354#32, 0x3E3B30CE#32, 0x3E45005D#32, 0x3E4F0080#32, 0x3E592FAB#32,
   0x3E638C4C#32, 0x3E6E14CB#32, 0x3E78C786#32, 0x3E81D16D#32, 0x3E87528B#32, 0x3E8CE646#32, 0x3E928BC0#32, 0x3E98421B#32,
   0x3E9E0875#32, 0x3EA3DDEB#32, 0x3EA9C196#32, 0x3EAFB28E#32, 0x3EB5AFE7#32, 0x3EBBB8B6#32, 0x3EC1CC0D#32, 0x3EC7E8FB#32,
   0x3ECE0E90#32, 0x3ED43BD7#32, 0x3EDA6FDF#32, 0x3EE0A9B2#32, 0x3EE6E859#32, 0x3EED2ADF#32, 0x3EF3704D#32, 0x3EF9B7AB#32]

def hannRom64 : List Word :=
  [0x3F000000#32, 0x3F03242B#32, 0x3F0647D9#32, 0x3F096A90#32, 0x3F0C8BD3#32, 0x3F0FAB27#32, 0x3F12C810#32, 0x3F15E214#32,
   0x3F18F8B8#32, 0x3F1C0B82#32, 0x3F1F19F9#32, 0x3F2223A5#32, 0x3F25280C#32, 0x3F2826B9#32, 0x3F2B1F35#32, 0x3F2E110A#32,
   0x3F30FBC5#32, 0x3F33DEF3#32, 0x3F36BA20#32, 0x3F398CDD#32, 0x3F3C56BA#32, 0x3F3F174A#32, 0x3F41CE1E#32, 0x3F447ACD#32,
   0x3F471CED#32, 0x3F49B415#32, 0x3F4C3FE0#32, 0x3F4EBFE9#32, 0x3F5133CD#32, 0x3F539B2B#32, 0x3F55F5A5#32, 0x3F5842DD#32]

def hannRom96 : List Word :=
  [0x3F5A827A#32, 0x3F5CB421#32, 0x3F5ED77D#32, 0x3F60EC38#32, 0x3F62F202#32, 0x3F64E889#32, 0x3F66CF81#32, 0x3F68A69F#32,
   0x3F6A6D99#32, 0x3F6C2429#32, 0x3F6DCA0D#32, 0x3F6F5F03#32, 0x3F70E2CC#32, 0x3F72552D#32, 0x3F73B5EC#32, 0x3F7504D3#32,
   0x3F7641AF#32, 0x3F776C4F#32, 0x3F788484#32, 0x3F798A24#32, 0x3F7A7D05#32, 0x3F7B5D04#32, 0x3F7C29FC#32, 0x3F7CE3CF#32,
   0x3F7D8A5F#32, 0x3F7E1D94#32, 0x3F7E9D56#32, 0x3F7F0992#32, 0x3F7F6237#32, 0x3F7FA737#32, 0x3F7FD888#32, 0x3F7FF622#32]

def hannRom128 : List Word :=
  [0x3F800000#32, 0x3F7FF622#32, 0x3F7FD888#32, 0x3F7FA737#32, 0x3F7F6237#32, 0x3F7F0992#32, 0x3F7E9D56#32, 0x3F7E1D94#32,
   0x3F7D8A5F#32, 0x3F7CE3CF#32, 0x3F7C29FC#32, 0x3F7B5D04#32, 0x3F7A7D05#32, 0x3F798A24#32, 0x3F788484#32, 0x3F776C4F#32,
   0x3F7641AF#32, 0x3F7504D3#32, 0x3F73B5EC#32, 0x3F72552D#32, 0x3F70E2CC#32, 0x3F6F5F03#32, 0x3F6DCA0D#32, 0x3F6C2429#32,
   0x3F6A6D99#32, 0x3F68A69F#32, 0x3F66CF81#32, 0x3F64E889#32, 0x3F62F202#32, 0x3F60EC38#32, 0x3F5ED77D#32, 0x3F5CB421#32]

def hannRom160 : List Word :=
  [0x3F5A827A#32, 0x3F5842DD#32, 0x3F55F5A5#32, 0x3F539B2B#32, 0x3F5133CD#32, 0x3F4EBFE9#32, 0x3F4C3FE0#32, 0x3F49B415#32,
   0x3F471CED#32, 0x3F447ACD#32, 0x3F41CE1E#32, 0x3F3F174A#32, 0x3F3C56BA#32, 0x3F398CDD#32, 0x3F36BA20#32, 0x3F33DEF3#32,
   0x3F30FBC5#32, 0x3F2E110A#32, 0x3F2B1F35#32, 0x3F2826B9#32, 0x3F25280C#32, 0x3F2223A5#32, 0x3F1F19F9#32, 0x3F1C0B82#32,
   0x3F18F8B8#32, 0x3F15E214#32, 0x3F12C810#32, 0x3F0FAB27#32, 0x3F0C8BD3#32, 0x3F096A90#32, 0x3F0647D9#32, 0x3F03242B#32]

def hannRom192 : List Word :=
  [0x3F000000#32, 0x3EF9B7AB#32, 0x3EF3704D#32, 0x3EED2ADF#32, 0x3EE6E859#32, 0x3EE0A9B2#32, 0x3EDA6FDF#32, 0x3ED43BD7#32,
   0x3ECE0E90#32, 0x3EC7E8FB#32, 0x3EC1CC0D#32, 0x3EBBB8B6#32, 0x3EB5AFE7#32, 0x3EAFB28E#32, 0x3EA9C196#32, 0x3EA3DDEB#32,
   0x3E9E0875#32, 0x3E98421B#32, 0x3E928BC0#32, 0x3E8CE646#32, 0x3E87528B#32, 0x3E81D16D#32, 0x3E78C786#32, 0x3E6E14CB#32,
   0x3E638C4C#32, 0x3E592FAB#32, 0x3E4F0080#32, 0x3E45005D#32, 0x3E3B30CE#32, 0x3E319354#32, 0x3E28296D#32, 0x3E1EF48B#32]

def hannRom224 : List Word :=
  [0x3E15F61A#32, 0x3E0D2F7D#32, 0x3E04A20E#32, 0x3DF89E3F#32, 0x3DE86FF3#32, 0x3DD8BBB7#32, 0x3DC983F7#32, 0x3DBACB0C#32,
   0x3DAC933B#32, 0x3D9EDEB5#32, 0x3D91AF97#32, 0x3D8507EA#32, 0x3D71D344#32, 0x3D5AAD38#32, 0x3D44A143#32, 0x3D2FB2CC#32,
   0x3D1BE50C#32, 0x3D093B12#32, 0x3CEF6F7E#32, 0x3CCEBB8A#32, 0x3CB05F55#32, 0x3C945F8C#32, 0x3C758104#32, 0x3C470C54#32,
   0x3C1D6830#32, 0x3BF1360B#32, 0x3BB15502#32, 0x3B766E3C#32, 0x3B1DC971#32, 0x3AB19298#32, 0x3A1DE1C8#32, 0x391DE7DF#32]

/-- The Hann window ROM (R240). -/
def hannRomTable : List Word :=
  hannRom0 ++ hannRom32 ++ hannRom64 ++ hannRom96 ++ hannRom128 ++ hannRom160 ++ hannRom192 ++ hannRom224

/-! ## The twiddle ROM (R241), in pieces of 32 words -/

def twcRom0 : List Word :=
  [0x3F800000#32, 0x3F7FEC43#32, 0x3F7FB10F#32, 0x3F7F4E6D#32, 0x3F7EC46D#32, 0x3F7E1324#32, 0x3F7D3AAC#32, 0x3F7C3B28#32,
   0x3F7B14BE#32, 0x3F79C79D#32, 0x3F7853F8#32, 0x3F76BA07#32, 0x3F74FA0B#32, 0x3F731447#32, 0x3F710908#32, 0x3F6ED89E#32,
   0x3F6C835E#32, 0x3F6A09A7#32, 0x3F676BD8#32, 0x3F64AA59#32, 0x3F61C598#32, 0x3F5EBE05#32, 0x3F5B941A#32, 0x3F584853#32,
   0x3F54DB31#32, 0x3F514D3D#32, 0x3F4D9F02#32, 0x3F49D112#32, 0x3F45E403#32, 0x3F41D870#32, 0x3F3DAEF9#32, 0x3F396842#32]

def twcRom32 : List Word :=
  [0x3F3504F3#32, 0x3F3085BB#32, 0x3F2BEB4A#32, 0x3F273656#32, 0x3F226799#32, 0x3F1D7FD1#32, 0x3F187FC0#32, 0x3F13682A#32,
   0x3F0E39DA#32, 0x3F08F59B#32, 0x3F039C3D#32, 0x3EFC5D27#32, 0x3EF15AEA#32, 0x3EE63375#32, 0x3EDAE880#32, 0x3ECF7BCA#32,
   0x3EC3EF15#32, 0x3EB8442A#32, 0x3EAC7CD4#32, 0x3EA09AE5#32, 0x3E94A031#32, 0x3E888E93#32, 0x3E78CFCC#32, 0x3E605C13#32,
   0x3E47C5C2#32, 0x3E2F10A2#32, 0x3E164083#32, 0x3DFAB273#32, 0x3DC8BD36#32, 0x3D96A905#32, 0x3D48FB30#32, 0x3CC90AB0#32]

def twcRom64 : List Word :=
  [0x00000000#32, 0xBCC90AB0#32, 0xBD48FB30#32, 0xBD96A905#32, 0xBDC8BD36#32, 0xBDFAB273#32, 0xBE164083#32, 0xBE2F10A2#32,
   0xBE47C5C2#32, 0xBE605C13#32, 0xBE78CFCC#32, 0xBE888E93#32, 0xBE94A031#32, 0xBEA09AE5#32, 0xBEAC7CD4#32, 0xBEB8442A#32,
   0xBEC3EF15#32, 0xBECF7BCA#32, 0xBEDAE880#32, 0xBEE63375#32, 0xBEF15AEA#32, 0xBEFC5D27#32, 0xBF039C3D#32, 0xBF08F59B#32,
   0xBF0E39DA#32, 0xBF13682A#32, 0xBF187FC0#32, 0xBF1D7FD1#32, 0xBF226799#32, 0xBF273656#32, 0xBF2BEB4A#32, 0xBF3085BB#32]

def twcRom96 : List Word :=
  [0xBF3504F3#32, 0xBF396842#32, 0xBF3DAEF9#32, 0xBF41D870#32, 0xBF45E403#32, 0xBF49D112#32, 0xBF4D9F02#32, 0xBF514D3D#32,
   0xBF54DB31#32, 0xBF584853#32, 0xBF5B941A#32, 0xBF5EBE05#32, 0xBF61C598#32, 0xBF64AA59#32, 0xBF676BD8#32, 0xBF6A09A7#32,
   0xBF6C835E#32, 0xBF6ED89E#32, 0xBF710908#32, 0xBF731447#32, 0xBF74FA0B#32, 0xBF76BA07#32, 0xBF7853F8#32, 0xBF79C79D#32,
   0xBF7B14BE#32, 0xBF7C3B28#32, 0xBF7D3AAC#32, 0xBF7E1324#32, 0xBF7EC46D#32, 0xBF7F4E6D#32, 0xBF7FB10F#32, 0xBF7FEC43#32]

/-- The twiddle cosines (R241). -/
def twcRomTable : List Word :=
  twcRom0 ++ twcRom32 ++ twcRom64 ++ twcRom96

def twsRom0 : List Word :=
  [0x00000000#32, 0x3CC90AB0#32, 0x3D48FB30#32, 0x3D96A905#32, 0x3DC8BD36#32, 0x3DFAB273#32, 0x3E164083#32, 0x3E2F10A2#32,
   0x3E47C5C2#32, 0x3E605C13#32, 0x3E78CFCC#32, 0x3E888E93#32, 0x3E94A031#32, 0x3EA09AE5#32, 0x3EAC7CD4#32, 0x3EB8442A#32,
   0x3EC3EF15#32, 0x3ECF7BCA#32, 0x3EDAE880#32, 0x3EE63375#32, 0x3EF15AEA#32, 0x3EFC5D27#32, 0x3F039C3D#32, 0x3F08F59B#32,
   0x3F0E39DA#32, 0x3F13682A#32, 0x3F187FC0#32, 0x3F1D7FD1#32, 0x3F226799#32, 0x3F273656#32, 0x3F2BEB4A#32, 0x3F3085BB#32]

def twsRom32 : List Word :=
  [0x3F3504F3#32, 0x3F396842#32, 0x3F3DAEF9#32, 0x3F41D870#32, 0x3F45E403#32, 0x3F49D112#32, 0x3F4D9F02#32, 0x3F514D3D#32,
   0x3F54DB31#32, 0x3F584853#32, 0x3F5B941A#32, 0x3F5EBE05#32, 0x3F61C598#32, 0x3F64AA59#32, 0x3F676BD8#32, 0x3F6A09A7#32,
   0x3F6C835E#32, 0x3F6ED89E#32, 0x3F710908#32, 0x3F731447#32, 0x3F74FA0B#32, 0x3F76BA07#32, 0x3F7853F8#32, 0x3F79C79D#32,
   0x3F7B14BE#32, 0x3F7C3B28#32, 0x3F7D3AAC#32, 0x3F7E1324#32, 0x3F7EC46D#32, 0x3F7F4E6D#32, 0x3F7FB10F#32, 0x3F7FEC43#32]

def twsRom64 : List Word :=
  [0x3F800000#32, 0x3F7FEC43#32, 0x3F7FB10F#32, 0x3F7F4E6D#32, 0x3F7EC46D#32, 0x3F7E1324#32, 0x3F7D3AAC#32, 0x3F7C3B28#32,
   0x3F7B14BE#32, 0x3F79C79D#32, 0x3F7853F8#32, 0x3F76BA07#32, 0x3F74FA0B#32, 0x3F731447#32, 0x3F710908#32, 0x3F6ED89E#32,
   0x3F6C835E#32, 0x3F6A09A7#32, 0x3F676BD8#32, 0x3F64AA59#32, 0x3F61C598#32, 0x3F5EBE05#32, 0x3F5B941A#32, 0x3F584853#32,
   0x3F54DB31#32, 0x3F514D3D#32, 0x3F4D9F02#32, 0x3F49D112#32, 0x3F45E403#32, 0x3F41D870#32, 0x3F3DAEF9#32, 0x3F396842#32]

def twsRom96 : List Word :=
  [0x3F3504F3#32, 0x3F3085BB#32, 0x3F2BEB4A#32, 0x3F273656#32, 0x3F226799#32, 0x3F1D7FD1#32, 0x3F187FC0#32, 0x3F13682A#32,
   0x3F0E39DA#32, 0x3F08F59B#32, 0x3F039C3D#32, 0x3EFC5D27#32, 0x3EF15AEA#32, 0x3EE63375#32, 0x3EDAE880#32, 0x3ECF7BCA#32,
   0x3EC3EF15#32, 0x3EB8442A#32, 0x3EAC7CD4#32, 0x3EA09AE5#32, 0x3E94A031#32, 0x3E888E93#32, 0x3E78CFCC#32, 0x3E605C13#32,
   0x3E47C5C2#32, 0x3E2F10A2#32, 0x3E164083#32, 0x3DFAB273#32, 0x3DC8BD36#32, 0x3D96A905#32, 0x3D48FB30#32, 0x3CC90AB0#32]

/-- The twiddle sines (R241). -/
def twsRomTable : List Word :=
  twsRom0 ++ twsRom32 ++ twsRom64 ++ twsRom96

/-- `HANN[i]`, `i < 256` (R240). -/
def hann (i : Nat) : Word := hannRomTable.getD i 0#32

/-- `TWC[m]`, `m < 128` (R241). -/
def twc (m : Nat) : Word := twcRomTable.getD m 0#32

/-- `TWS[m]`, `m < 128` (R241). -/
def tws (m : Nat) : Word := twsRomTable.getD m 0#32

/-! ## The bin-mapper lookup table (R242) -/

/-- `START[i] = floor(i²/128)`. -/
def binStart (i : Nat) : Nat := i * i / 128

/-- `END[i] = min(floor((i+1)²/128), 128)`. -/
def binEnd (i : Nat) : Nat := min ((i + 1) * (i + 1) / 128) 128

/-- `COUNT[i] = END[i] - START[i]`. -/
def binCount (i : Nat) : Nat := binEnd i - binStart i

/-- The word the BINLUT window reads: `COUNT || END || START`, eight bits each (R43). -/
def binlutWord (i : Nat) : Word :=
  (BitVec.ofNat 8 (binCount i) ++ BitVec.ofNat 8 (binEnd i) ++ BitVec.ofNat 8 (binStart i)).setWidth 32

/-! ## Bit reversal (00_scope.md R14, R244) -/

/-- `rev8(i) = i[0]||i[1]||i[2]||i[3]||i[4]||i[5]||i[6]||i[7]` (R14). -/
def rev8 (i : Byte) : Byte :=
  bit (i.getLsbD 0) ++ bit (i.getLsbD 1) ++ bit (i.getLsbD 2) ++ bit (i.getLsbD 3) ++
    bit (i.getLsbD 4) ++ bit (i.getLsbD 5) ++ bit (i.getLsbD 6) ++ bit (i.getLsbD 7)

end Sys2Proof.Machine
end

