-- ==== Sys2Proof/Machine/Datapath.lean ====
section
/-! DEFINITION. The run's datapath (42_fft_datapath.md R200 to R214): frame, window, bit reversal, butterflies, magnitudes and bins, as functions of words. -/

namespace Sys2Proof.Machine

/-- Element `i` of a word array. The rules bound every index (R18); beyond the array it is 0 (log 16). -/
def readAt {n : Nat} (v : Vector Word n) (i : Nat) : Word := if h : i < n then v[i] else 0#32

/-- A word array with element `i` written; beyond the array nothing is written (log 16). -/
def writeAt {n : Nat} (v : Vector Word n) (i : Nat) (x : Word) : Vector Word n := v.setIfInBounds i x

/-- The complex working values `re` and `im` of a run (R200, R39). -/
structure Spectrum where
  re : Vector Word 256
  im : Vector Word 256
  deriving DecidableEq, Repr

/-- How many samples are in the frame: `min(SAMPLE_COUNT, 256)` (R38, R201). -/
def frameLength (byteCount : Word) : Nat := min (byteCount.toNat / 4) Config.fftSize

/-- Frame extraction (R201). -/
def frame (byteCount : Word) (sample : Vector Word 256) : Vector Word 256 :=
  Vector.ofFn fun i => if i.val < frameLength byteCount then readAt sample i.val else 0x00000000#32

/-- The Hann window (R203). -/
def windowed (x : Vector Word 256) : Vector Word 256 :=
  Vector.ofFn fun i => (fmul32 (readAt x i.val) (hann i.val)).w

/-- The bit-reversal permutation, with `im = +0` (R204). -/
def permuted (w : Vector Word 256) : Spectrum where
  re := Vector.ofFn fun i => readAt w (rev8 (BitVec.ofNat 8 i.val)).toNat
  im := Vector.replicate 256 0x00000000#32

/-- `Re(W·x[o])` with `W = c - i·s` (R206). -/
def twiddleRe (c s re im : Word) : Word := (fadd32 (fmul32 c re).w (fmul32 s im).w).w

/-- `Im(W·x[o])` (R206). -/
def twiddleIm (c s re im : Word) : Word := (fsub32 (fmul32 c im).w (fmul32 s re).w).w

/-- One butterfly at positions `e` and `o`, in place (R206). -/
def butterfly (e o : Nat) (c s : Word) (z : Spectrum) : Spectrum :=
  let tr := twiddleRe c s (readAt z.re o) (readAt z.im o)
  let ti := twiddleIm c s (readAt z.re o) (readAt z.im o)
  let er := readAt z.re e
  let ei := readAt z.im e
  { re := writeAt (writeAt z.re o (fsub32 er tr).w) e (fadd32 er tr).w
    im := writeAt (writeAt z.im o (fsub32 ei ti).w) e (fadd32 ei ti).w }

/-- The butterflies of a pass in R200's order: `j0` in steps of `size`, then `k` below `size/2`. -/
def passIndices (size : Nat) : List (Nat × Nat) :=
  (List.range (Config.fftSize / size)).flatMap fun g =>
    (List.range (size / 2)).map fun k => (g * size, k)

/-- The butterfly of a pass at group start `j0` and offset `k`, with its twiddle (R205, R207). -/
def passButterfly (size : Nat) (z : Spectrum) (jk : Nat × Nat) : Spectrum :=
  butterfly (jk.1 + jk.2) (jk.1 + jk.2 + size / 2)
    (twc (jk.2 * (Config.fftSize / size))) (tws (jk.2 * (Config.fftSize / size))) z

/-- One pass (R207). -/
def pass (z : Spectrum) (size : Nat) : Spectrum := (passIndices size).foldl (passButterfly size) z

/-- The sizes of the eight passes, in order (R207). -/
def passSizes : List Nat := [2, 4, 8, 16, 32, 64, 128, 256]

/-- The eight passes (R207). -/
def transform (z : Spectrum) : Spectrum := passSizes.foldl pass z

/-- The magnitude calculator over the first 128 outputs (R210). -/
def magnitudes (z : Spectrum) : Vector Word 128 :=
  Vector.ofFn fun i => (fmag32 (readAt z.re i.val) (readAt z.im i.val)).w

/-- The sum of `mag[j]` for `n` indices from `j`, ascending, into `acc` (R212). -/
def sumFrom (mag : Vector Word 128) : Nat → Nat → Word → Word
  | 0, _, acc => acc
  | n + 1, j, acc => sumFrom mag n (j + 1) (fadd32 acc (readAt mag j)).w

/-- `Bin(i)`: the mean of the range, times 4, clamped; an empty range is `+0` (R212 to R214). -/
def bin (mag : Vector Word 128) (i : Nat) : Word :=
  if binCount i = 0 then 0x00000000#32
  else
    let mean := (fdiv32 (sumFrom mag (binCount i) (binStart i) 0x00000000#32) (u2f (binCount i))).w
    (fclamp01 (fmul32 mean fourWord).w).w

/-- The bin mapper (R211 to R214). -/
def bins (mag : Vector Word 128) : Vector Word 128 := Vector.ofFn fun i => bin mag i.val

/-- The transform of a frame (R203 to R209). -/
def analyse (x : Vector Word 256) : Spectrum := transform (permuted (windowed x))

end Sys2Proof.Machine
end

