-- ==== Sys2Proof/Machine/Operands.lean ====
section
/-! DEFINITION. How operations take their operands (30_encoding.md R107) and what a host read returns (40_host_operations.md R131). -/

namespace Sys2Proof.Machine

/-! ## Write data -/

/-- The byte FEED_B takes: `wdata[7:0]` (R107, R142). -/
def feedByteOf (v : Word) : Byte := v.extractLsb 7 0

/-- The bytes FEED_W takes, in the order they are fed (R107, R143). -/
def feedBytesOf (v : Word) : List Byte :=
  [v.extractLsb 7 0, v.extractLsb 15 8, v.extractLsb 23 16, v.extractLsb 31 24]

/-- The little-endian sample word of four stream bytes: `b3 || b2 || b1 || b0` (R75). -/
def sampleWord (b0 b1 b2 b3 : Byte) : Word := b3 ++ b2 ++ b1 ++ b0

/-- The operator of an FPOP on its operand words (R139); FSQRT and FCLAMP ignore `b` (R107). -/
def fpOperator : FpSel → Word → Word → FpResult
  | .fadd, a, b => fadd32 a b
  | .fsub, a, b => fsub32 a b
  | .fmul, a, b => fmul32 a b
  | .fdiv, a, b => fdiv32 a b
  | .fsqrt, a, _ => fsqrt32 a
  | .fmag, a, b => fmag32 a b
  | .fclamp, a, _ => fclamp01 a

/-! ## Read data (R131) -/

/-- SAMPLE_COUNT (R32). -/
def State.sampleCount (s : State) : Word := s.byteCount / 4#32

/-- "Valid" of R40. -/
def State.valid (s : State) : Bool := s.outLen == 128#32

/-- The SAMPLE window (R40). -/
def State.sampleWindow (s : State) (i : Nat) : Word :=
  if s.busy then 0#32 else if i < frameLength s.byteCount then readAt s.sample i else 0#32

/-- A result window over the array `v` (R40). -/
def State.resultWindow {n : Nat} (s : State) (v : Vector Word n) (i : Nat) : Word :=
  if s.busy || !s.valid then 0#32 else readAt v i

/-- The register at byte offset `off`, below 0x0038 (R23, R131). -/
def State.readRegister (s : State) (off : Nat) : Word :=
  if off = Config.offId then Config.idWord
  else if off = Config.offParam then Config.paramWord
  else if off = Config.offCtrl then s.ctrlWord
  else if off = Config.offStatus then s.statusWord
  else if off = Config.offByteCount then s.byteCount
  else if off = Config.offSampleCount then s.sampleCount
  else if off = Config.offOutLen then s.outLen
  else if off = Config.offOpa then s.opa
  else if off = Config.offOpb then s.opb
  else if off = Config.offOpres then s.opres
  else if off = Config.offFpflags then s.fpflagsWord
  else 0#32

/-- The word at byte offset `off`: registers, data windows, ROM windows, and 0 at reserved offsets (R37, R40,
R43 to R45, R71, R131). -/
def State.readOffset (s : State) (off : Nat) : Word :=
  if off < 0x0400 then s.readRegister off
  else if off < 0x0800 then s.sampleWindow ((off - Config.baseSample) / 4)
  else if off < 0x0C00 then s.resultWindow s.re ((off - Config.baseRe) / 4)
  else if off < 0x1000 then s.resultWindow s.im ((off - Config.baseIm) / 4)
  else if off < 0x1200 then s.resultWindow s.mag ((off - Config.baseMag) / 4)
  else if off < 0x1400 then s.resultWindow s.out ((off - Config.baseOut) / 4)
  else if off < 0x1600 then binlutWord ((off - Config.baseBinlut) / 4)
  else if off < 0x1800 then 0#32
  else if off < 0x1C00 then hann ((off - Config.baseHann) / 4)
  else if off < 0x1E00 then twc ((off - Config.baseTwc) / 4)
  else tws ((off - Config.baseTws) / 4)

/-- The word a host read of word address `a` returns (R131). -/
def State.readWord (s : State) (a : WordAddr) : Word := s.readOffset (4 * a.toNat)

end Sys2Proof.Machine
end

