-- ==== Sys2Proof/Machine/Ops.lean ====
section
/-! DEFINITION. The named operations that the instructions share: raising and clearing an error (60_exceptions.md R261, R272), the byte stream (R138, R141), FPOP (R139), START (R140), the Engine's completion (R215) and reset (R290 to R294). -/

namespace Sys2Proof.Machine

/-! ## Errors: the block's whole exception entry and return -/

/-- `raise Error(code)` (R261): the first error stays in ECODE (R270), nothing is saved (R271). -/
def raiseError (code : ErrorCode) (s : State) : State :=
  { s with ecode := if s.err then s.ecode else errorCode code, err := true }

/-- The return from an error: ERR and ECODE cleared (R272). -/
def clearError (s : State) : State := { s with err := false, ecode := 0#4 }

/-- `effect` while the Engine is IDLE, and `raise Error(code)` with no other effect while BUSY (R136, R142,
R143, R296). -/
def whenIdle (code : ErrorCode) (effect : State → State) (s : State) : State :=
  if s.busy then raiseError code s else effect s

/-! ## The byte stream -/

/-- `FeedByte` (R141). -/
def feedByte (b : Byte) (s : State) : State :=
  let p := s.byteCount.toNat % 4
  let n := s.byteCount.toNat / 4
  if s.byteCount = Config.byteCountMax then s
  else if p < 3 then
    { s with asm := s.asm.setIfInBounds p b, byteCount := s.byteCount + 1#32 }
  else if n < 256 then
    { s with sample := writeAt s.sample n (sampleWord s.asm[0] s.asm[1] s.asm[2] b),
             byteCount := s.byteCount + 1#32 }
  else { s with byteCount := s.byteCount + 1#32 }

/-- Several bytes in order. -/
def feedBytes (bs : List Byte) (s : State) : State := bs.foldl (fun s b => feedByte b s) s

/-- CLEAR's effect (R138). -/
def clearStream (s : State) : State :=
  { s with byteCount := 0#32, asm := Vector.replicate 3 0x00#8 }

/-! ## Commands -/

/-- FPOP (R139). -/
def fpop (sel : FpSel) (s : State) : State :=
  let r := fpOperator sel s.opa s.opb
  { s with opres := r.w, fpflags := accumulateFlags s.fpflags r.flags }

/-- START's effect (R140). -/
def startRun (s : State) : State := { s with done := false, phase := .running }

/-- A command's effect once it is accepted (R105). -/
def commandEffect : Command → State → State
  | .nop, s => s
  | .clear, s => clearStream s
  | .start, s => startRun s
  | .fpop sel, s => fpop sel s

/-- A command, rejected with code 4 while BUSY (R105, R136). -/
def runCommand (c : Command) (s : State) : State := whenIdle .cmdBusy (commandEffect c) s

/-- `DecodeCmd(v)` (R105): the BUSY check, then the word, then the command. -/
def writeCmd (v : Word) (s : State) : State :=
  whenIdle .cmdBusy
    (fun s => match decodeCmd v with
      | .error code => raiseError code s
      | .ok c => commandEffect c s) s

/-! ## The Engine -/

/-- `Complete(empty = true)`: RE, IM, MAG and OUT are not written (R202, R215). -/
def completeEmpty (s : State) : State :=
  { s with outLen := 0#32, phase := .idle, done := true }

/-- `Complete(empty = false)` for the transform `z` (R215). -/
def completeWith (z : Spectrum) (s : State) : State :=
  { s with re := z.re, im := z.im, mag := magnitudes z, out := bins (magnitudes z),
           outLen := 128#32, phase := .idle, done := true }

/-- The completion of a run on SAMPLE and BYTE_COUNT, which nothing has changed since START (R86, R200, R215,
log 11). -/
def complete (s : State) : State :=
  if s.byteCount = 0#32 then completeEmpty s
  else completeWith (analyse (frame s.byteCount s.sample)) s

/-- The Engine's turn: completion if it is RUNNING, nothing if it is IDLE (R16, R47). -/
def engineTurn (s : State) : State := if s.busy then complete s else s

/-! ## Host reads and reset -/

/-- A host read: the word is returned and nothing changes (R78, R131). -/
def hostRead (a : WordAddr) (s : State) : State := { s with rdata := s.readWord a }

/-- The registers of R291 set, the arrays, which reset does not clear, left as they are (R292, log 6). -/
def resetRegisters (s : State) : State :=
  { State.reset with
      sample := s.sample, re := s.re, im := s.im, mag := s.mag, out := s.out,
      rdata := s.rdata, inputs := s.inputs }

/-- One edge with `rst = 1`: an access presented in that cycle has no effect, a read returning 0 (R290, R294). -/
def resetEdge (presented : Option BusAccess) (s : State) : State :=
  match presented with
  | some (.read _) => { resetRegisters s with rdata := 0#32 }
  | some (.write _ _) => resetRegisters s
  | none => resetRegisters s

end Sys2Proof.Machine
end

