-- ==== Sys2Proof/Machine/Command.lean ====
section
/-! DEFINITION. The CMD rows NOP, CLEAR and START, and WR.CMD (40_host_operations.md R136 to R138, R140). -/

namespace Sys2Proof.Machine

/-- NOP (R137). -/
def execNop (s : State) : Host.Outcome State Fault Refusal := .next (runCommand .nop s)

/-- CLEAR (R138). -/
def execClear (s : State) : Host.Outcome State Fault Refusal := .next (runCommand .clear s)

/-- START (R140). -/
def execStart (s : State) : Host.Outcome State Fault Refusal := .next (runCommand .start s)

/-- WR.CMD: `DecodeCmd(v)` (R136). -/
def execWrCmd (v : Word) (s : State) : Host.Outcome State Fault Refusal := .next (writeCmd v s)

end Sys2Proof.Machine
end

