-- ==== Sys2Proof/Machine/Feed.lean ====
section
/-! DEFINITION. The byte stream accesses FEED_B and FEED_W (40_host_operations.md R142, R143). -/

namespace Sys2Proof.Machine

/-- FEED_B: one byte, or code 5 while BUSY (R142). -/
def execFeedB (v : Word) (s : State) : Host.Outcome State Fault Refusal :=
  .next (whenIdle .feedBusy (feedByte (feedByteOf v)) s)

/-- FEED_W: four bytes, or code 5 while BUSY (R143). -/
def execFeedW (v : Word) (s : State) : Host.Outcome State Fault Refusal :=
  .next (whenIdle .feedBusy (feedBytes (feedBytesOf v)) s)

end Sys2Proof.Machine
end

