-- ==== Sys2Proof/Machine/Fpop.lean ====
section
/-! DEFINITION. The FPOP rows (40_host_operations.md R139, R144 to R150). -/

namespace Sys2Proof.Machine

/-- FPOP.FADD (R144). -/
def execFpopFadd (s : State) : Host.Outcome State Fault Refusal := .next (runCommand (.fpop .fadd) s)

/-- FPOP.FSUB (R145). -/
def execFpopFsub (s : State) : Host.Outcome State Fault Refusal := .next (runCommand (.fpop .fsub) s)

/-- FPOP.FMUL (R146). -/
def execFpopFmul (s : State) : Host.Outcome State Fault Refusal := .next (runCommand (.fpop .fmul) s)

/-- FPOP.FDIV (R147). -/
def execFpopFdiv (s : State) : Host.Outcome State Fault Refusal := .next (runCommand (.fpop .fdiv) s)

/-- FPOP.FSQRT (R148). -/
def execFpopFsqrt (s : State) : Host.Outcome State Fault Refusal := .next (runCommand (.fpop .fsqrt) s)

/-- FPOP.FMAG (R149). -/
def execFpopFmag (s : State) : Host.Outcome State Fault Refusal := .next (runCommand (.fpop .fmag) s)

/-- FPOP.FCLAMP (R150). -/
def execFpopFclamp (s : State) : Host.Outcome State Fault Refusal := .next (runCommand (.fpop .fclamp) s)

end Sys2Proof.Machine
end

