-- ==== Sys2Proof/Machine/Registers.lean ====
section
/-! DEFINITION. The register accesses: RD, the register writes and the ignored writes (40_host_operations.md R131 to R135, R151). -/

namespace Sys2Proof.Machine

/-- WR.CTRL: `IE <- v[0]`, `EIE <- v[1]`, in every state (R132). -/
def execWrCtrl (v : Word) (s : State) : Host.Outcome State Fault Refusal :=
  .next { s with ie := v.getLsbD 0, eie := v.getLsbD 1 }

/-- WR.STATUS: W1C of DONE by `v[1]` and of ERR, with ECODE, by `v[2]` (R133). -/
def execWrStatus (v : Word) (s : State) : Host.Outcome State Fault Refusal :=
  let s1 := if v.getLsbD 1 then { s with done := false } else s
  .next (if v.getLsbD 2 then clearError s1 else s1)

/-- WR.OPA (R134). -/
def execWrOpa (v : Word) (s : State) : Host.Outcome State Fault Refusal := .next { s with opa := v }

/-- WR.OPB (R134). -/
def execWrOpb (v : Word) (s : State) : Host.Outcome State Fault Refusal := .next { s with opb := v }

/-- WR.FPFLAGS: W1C of the flags named by the 1 bits (R135). -/
def execWrFpflags (v : Word) (s : State) : Host.Outcome State Fault Refusal :=
  .next { s with fpflags := clearFlags s.fpflags v }

/-- WR.IGNORED: no state change, in every state (R151). -/
def execWrIgnored (_a : WordAddr) (_v : Word) (s : State) : Host.Outcome State Fault Refusal := .next s

/-- RD: the word at `a` is returned, and no state of the block changes (R78, R131). -/
def execRd (a : WordAddr) (s : State) : Host.Outcome State Fault Refusal := .next (hostRead a s)

end Sys2Proof.Machine
end

