-- ==== Sys2Proof/Machine/Dispatch.lean ====
section
/-! DEFINITION. The meaning of each operation, one arm a row of the opcode table. -/

namespace Sys2Proof.Machine

/-- What one operation does to the block. -/
def exec (i : Instr) (s : State) : Host.Outcome State Fault Refusal :=
  match i with
  | .nop => Sys2Proof.Machine.execNop s
  | .clear => Sys2Proof.Machine.execClear s
  | .start => Sys2Proof.Machine.execStart s
  | .fpopFadd => Sys2Proof.Machine.execFpopFadd s
  | .fpopFsub => Sys2Proof.Machine.execFpopFsub s
  | .fpopFmul => Sys2Proof.Machine.execFpopFmul s
  | .fpopFdiv => Sys2Proof.Machine.execFpopFdiv s
  | .fpopFsqrt => Sys2Proof.Machine.execFpopFsqrt s
  | .fpopFmag => Sys2Proof.Machine.execFpopFmag s
  | .fpopFclamp => Sys2Proof.Machine.execFpopFclamp s
  | .wrCtrl v => Sys2Proof.Machine.execWrCtrl v s
  | .wrStatus v => Sys2Proof.Machine.execWrStatus v s
  | .wrCmd v => Sys2Proof.Machine.execWrCmd v s
  | .feedW v => Sys2Proof.Machine.execFeedW v s
  | .feedB v => Sys2Proof.Machine.execFeedB v s
  | .wrOpa v => Sys2Proof.Machine.execWrOpa v s
  | .wrOpb v => Sys2Proof.Machine.execWrOpb v s
  | .wrFpflags v => Sys2Proof.Machine.execWrFpflags v s
  | .wrIgnored a v => Sys2Proof.Machine.execWrIgnored a v s
  | .rd a => Sys2Proof.Machine.execRd a s

end Sys2Proof.Machine
end

