-- ==== Sys2Proof/Machine/Step.lean ====
section
/-! DEFINITION. One step of the block: the next event (20_memory.md R80, R82; logs 1 and 2). -/

namespace Sys2Proof.Machine

/-- One step: the next event of `inputs`, taken off the list, is an access that the decoder and `exec` give
its effect, a turn of the Engine, or a reset edge. With no event listed the Host is silent and the Engine has
its turn, so that a run completes (R302, log 2). -/
def step (s : State) : Host.Outcome State Fault Refusal :=
  match s.inputs with
  | [] => .next (engineTurn s)
  | .access a :: rest => exec (decode a) { s with inputs := rest }
  | .engine :: rest => .next (engineTurn { s with inputs := rest })
  | .rst presented :: rest => .next (resetEdge presented { s with inputs := rest })

/-- `s` with the access of a table word as its next event (log 10). -/
def State.withFetchWord (s : State) (nbits w : Nat) : State :=
  { s with inputs := .access (tableAccess nbits w) :: s.inputs }

end Sys2Proof.Machine
end

