-- ==== Sys2Proof/Machine/Htl.lean ====
section
/-! DEFINITION. HTL, the notation for host programs, and its encoding as bus accesses (30_encoding.md R120 to R122). -/

namespace Sys2Proof.Machine

/-- An HTL program (R120); `rep n p` is `n` copies of `p`. -/
inductive Htl where
  | empty
  | wr (addr : ByteAddr) (data : Word)
  | rd (addr : ByteAddr)
  | poll (addr : ByteAddr) (mask value : Word)
  | seq (first second : Htl)
  | rep (n : Nat) (body : Htl)
  deriving DecidableEq, Repr

/-- One line of an encoded program (R122). -/
inductive HtlLine where
  /-- `W <offset> <data>` -/
  | write (offset : ByteAddr) (data : Word)
  /-- `R <offset>` -/
  | read (offset : ByteAddr)
  /-- `P <offset> <mask> <value>` -/
  | poll (offset : ByteAddr) (mask value : Word)
  deriving DecidableEq, Repr

/-- The encoding of a program: its lines in program order, `rep` expanded (R122). -/
def htlLines : Htl → List HtlLine
  | .empty => []
  | .wr a v => [.write a v]
  | .rd a => [.read a]
  | .poll a mask value => [.poll a mask value]
  | .seq p q => htlLines p ++ htlLines q
  | .rep n p => (List.replicate n (htlLines p)).flatten

/-- A poll ends with the read whose value, masked, is `value` (R120). -/
def pollEnds (mask value word : Word) : Bool := word &&& mask == value

/-- The accesses of a line; a poll that ends at its read number `again + 1` stands for that many reads, a
number the model leaves open (R120, R122, log 17). -/
def lineAccesses (again : Nat) : HtlLine → List BusAccess
  | .write a v => [memWrite a v]
  | .read a => [memRead a]
  | .poll a _ _ => List.replicate (again + 1) (memRead a)

/-- The byte address of a register offset or of `W[i]`, `base(W) + 4·i` (R120). -/
def htlAddr (base i : Nat) : ByteAddr := BitVec.ofNat 13 (base + 4 * i)

/-- A write to the register at `offset`. -/
def htlWr (offset : Nat) (v : Word) : Htl := .wr (htlAddr offset 0) v

/-! ## The pseudo-instructions (R121) -/

/-- `nop`, `clear`, `start`, `fadd` to `fclamp`: the write of the command's word to CMD. -/
def htlCommand (c : Command) : Htl := htlWr Config.offCmd (encodeCmd c)
/-- `opa V` -/
def htlOpa (v : Word) : Htl := htlWr Config.offOpa v
/-- `opb V` -/
def htlOpb (v : Word) : Htl := htlWr Config.offOpb v
/-- `feedw V`, and `feedf x` on the word of `x` -/
def htlFeedw (v : Word) : Htl := htlWr Config.offFeedW v
/-- `feedb B` -/
def htlFeedb (b : Byte) : Htl := htlWr Config.offFeedB (b.setWidth 32)
/-- `wait` -/
def htlWait : Htl := .poll (htlAddr Config.offStatus 0) 0x00000001#32 0x00000000#32
/-- `ackdone` -/
def htlAckdone : Htl := htlWr Config.offStatus 0x00000002#32
/-- `ackerr` -/
def htlAckerr : Htl := htlWr Config.offStatus 0x00000004#32

end Sys2Proof.Machine
end

