-- ==== Sys2Proof/Safety.lean ====
section
/-! DEFINITION. The terms the statements use: the machine's invariant, what a host can observe, and what the correctly rounded result of an operator is. -/

namespace Sys2Proof.Machine

/-! ## The invariant -/

/-- A word in [0, 1]: `+0`, `1.0` or a positive value below 1, so never NaN and never `-0` (R216). -/
def inUnitRange (w : Word) : Bool := decide (w ≤ oneWord)

/-- What a magnitude is: `+0`, a positive finite value, `+∞`, or the canonical NaN (R210). -/
def isMagnitude (w : Word) : Bool := decide (w ≤ 0x7F800000#32) || w == qNaN

/-- The whole-machine rules every step keeps. -/
structure State.Inv (s : State) : Prop where
  /-- ECODE is 0 exactly when ERR is 0 (R262). -/
  ecode_iff : s.ecode = 0#4 ↔ s.err = false
  /-- ECODE values 6 to 15 are never produced (R262). -/
  ecode_le : s.ecode.toNat ≤ 5
  /-- OUT_LEN is 0 or 128 (R33, R216). -/
  outLen_legal : s.outLen = 0#32 ∨ s.outLen = 128#32
  /-- `DONE = 1` always refers to the last START (R300). -/
  done_idle : s.phase = .running → s.done = false
  /-- Every OUT word is in [0, 1] when `OUT_LEN = 128` (R216). -/
  out_range : s.outLen = 128#32 → ∀ i < 128, inUnitRange (readAt s.out i) = true
  /-- Every MAG word is non-negative or NaN when `OUT_LEN = 128` (R210, R216). -/
  mag_range : s.outLen = 128#32 → ∀ i < 128, isMagnitude (readAt s.mag i) = true

/-! ## Rejected writes -/

/-- `s` with an error of code `code` recorded and nothing else changed: ERR is 1, and ECODE keeps an earlier
error's code (R260, R261, R270). -/
def withErrorRecorded (code : BitVec 4) (s : State) : State :=
  { s with err := true, ecode := if s.err = true then s.ecode else code }

/-- The operation is a write to CMD, FEED_W or FEED_B, which are rejected while BUSY (R136, R142, R143). -/
def isCmdOrFeedWrite : Instr → Bool
  | .nop => true
  | .clear => true
  | .start => true
  | .fpopFadd => true
  | .fpopFsub => true
  | .fpopFmul => true
  | .fpopFdiv => true
  | .fpopFsqrt => true
  | .fpopFmag => true
  | .fpopFclamp => true
  | .wrCtrl _ => false
  | .wrStatus _ => false
  | .wrCmd _ => true
  | .feedW _ => true
  | .feedB _ => true
  | .wrOpa _ => false
  | .wrOpb _ => false
  | .wrFpflags _ => false
  | .wrIgnored _ _ => false
  | .rd _ => false

/-! ## Runs -/

/-- The event is an access of the Host. -/
def isAccess : Event → Bool
  | .access _ => true
  | .engine => false
  | .rst _ => false

/-- The next event of `s` is an access that decodes to `i`. -/
def nextInstr (s : State) : Option Instr :=
  match s.inputs with
  | .access a :: _ => some (decode a)
  | _ => none

/-- The next event of `s` is a reset edge. -/
def nextIsReset (s : State) : Bool :=
  match s.inputs with
  | .rst _ :: _ => true
  | _ => false

/-- The next step of `s` completes a run: the Engine is RUNNING and has its turn. -/
def nextCompletes (s : State) : Bool :=
  match s.inputs with
  | .engine :: _ => s.busy
  | [] => s.busy
  | _ => false

/-- The event of one FEED_B write of `b`. -/
def feedEvent (b : Byte) : Event :=
  .access (.write (wordAddr Config.offFeedB) (b.setWidth 32))

/-! ## What a host can observe (R40, R46, R50, R292) -/

/-- Two states that agree on everything but contents the spec leaves unspecified: SAMPLE beyond
`min(SAMPLE_COUNT, 256)`, ASM beyond `BYTE_COUNT mod 4`, and the result arrays when `OUT_LEN` is not 128. -/
structure SameObservable (s t : State) : Prop where
  ie : s.ie = t.ie
  eie : s.eie = t.eie
  phase : s.phase = t.phase
  done : s.done = t.done
  err : s.err = t.err
  ecode : s.ecode = t.ecode
  byteCount : s.byteCount = t.byteCount
  outLen : s.outLen = t.outLen
  opa : s.opa = t.opa
  opb : s.opb = t.opb
  opres : s.opres = t.opres
  fpflags : s.fpflags = t.fpflags
  rdata : s.rdata = t.rdata
  inputs : s.inputs = t.inputs
  asm : ∀ (j : Nat) (h : j < 3), j < s.byteCount.toNat % 4 → s.asm[j] = t.asm[j]
  sample : ∀ i < frameLength s.byteCount, readAt s.sample i = readAt t.sample i
  re : s.outLen = 128#32 → s.re = t.re
  im : s.outLen = 128#32 → s.im = t.im
  mag : s.outLen = 128#32 → s.mag = t.mag
  out : s.outLen = 128#32 → s.out = t.out

/-! ## Correct rounding (R172) -/

/-- `r` is the finite word nearest to the real `m`, and the even one of two nearest. -/
def IsNearestEven (m : ℝ) (r : Word) : Prop :=
  isFinite r = true ∧
  (∀ w : Word, isFinite w = true → |((val r : ℚ) : ℝ) - m| ≤ |((val w : ℚ) : ℝ) - m|) ∧
  (∀ w : Word, isFinite w = true → |((val w : ℚ) : ℝ) - m| = |((val r : ℚ) : ℝ) - m| →
    val w ≠ val r → r.getLsbD 0 = false)

/-- The overflow threshold `2^128 - 2^103` of R172. -/
def overflowBound : ℝ := 2 ^ 128 - 2 ^ 103

/-- `N` is `RNE(x)` of R172: the integer nearest to `x`, and the even one of two nearest. -/
def IsRne (x : ℝ) (N : Nat) : Prop := |(N : ℝ) - x| ≤ 1 / 2 ∧ (|(N : ℝ) - x| = 1 / 2 → N % 2 = 0)

/-- `tiny` of R172: rounded to 24 significant bits with an unbounded exponent range, `|m|` lies below the smallest
normal magnitude `2^-126`. -/
def TinyAfterRounding (m : ℝ) : Prop :=
  ∃ (E : ℤ) (Nu : Nat), (2 : ℝ) ^ E ≤ |m| ∧ |m| < 2 ^ (E + 1) ∧ IsRne (|m| / 2 ^ (E - 23)) Nu ∧
    (Nu : ℝ) * 2 ^ (E - 23) < 2 ^ (-126 : ℤ)

/-- `r` is the correctly rounded result of the exact real `m`: at or beyond the threshold an infinity of `m`'s
sign with OF and NX, and otherwise the nearest finite word, with NX exactly when it differs from `m`, no OF, DZ or
NV, and UF exactly when `m` is tiny after rounding and NX is raised (R172, R173). -/
def CorrectlyRounded (m : ℝ) (r : FpResult) : Prop :=
  (overflowBound ≤ |m| → r = ⟨infWord (decide (m < 0)), flagOF ||| flagNX⟩) ∧
  (|m| < overflowBound →
    IsNearestEven m r.w ∧
    (r.flags &&& flagNX ≠ 0#5 ↔ ((val r.w : ℚ) : ℝ) ≠ m) ∧
    r.flags &&& (flagOF ||| flagDZ ||| flagNV) = 0#5 ∧
    (r.flags &&& flagUF ≠ 0#5 ↔ TinyAfterRounding m ∧ r.flags &&& flagNX ≠ 0#5))

/-! ## Relations between runs (R217, R222) -/

/-- Equal words, or two zeros of either sign. -/
def sameUpToZeroSign (a b : Word) : Prop := a = b ∨ (isZero a = true ∧ isZero b = true)

/-- `a` is `b` negated, up to the sign of zeros; a NaN, being canonical, is its own negation (R174, R217). -/
def negatedUpToZeroSign (a b : Word) : Prop := if isNaN b = true then a = b else sameUpToZeroSign a (flipSign b)

/-- The butterfly of a pass with the opposite twiddle sign, `W = c + i·s` (R217). -/
def passButterflyConj (size : Nat) (z : Spectrum) (jk : Nat × Nat) : Spectrum :=
  butterfly (jk.1 + jk.2) (jk.1 + jk.2 + size / 2)
    (twc (jk.2 * (Config.fftSize / size))) (flipSign (tws (jk.2 * (Config.fftSize / size)))) z

/-- The transform of a frame with the opposite twiddle sign (R217). -/
def analyseConj (x : Vector Word 256) : Spectrum :=
  passSizes.foldl (fun z size => (passIndices size).foldl (passButterflyConj size) z) (permuted (windowed x))

end Sys2Proof.Machine
end

