-- ==== Sys2Proof/Certificates/Slice0/Obligations.lean ====
section
/-! DEFINITION. The statements for the provers, from the numbered rules of spec/. -/

open Sys2Proof Sys2Proof.Machine

/-! ## Encoding and the step -/

/-- Decoding the encoding of any well-formed operation gives it back, every operand at every value (R100, R106,
R110; the one reading of a CMD write is the model's choice, log 9). -/
def Obligations.DecodeOfEncodeIsIdentity : Prop :=
  ∀ i : Instr, i.wellFormed = true → decode (encode i) = i

/-- Every bus access has one well-formed reading, and encoding it gives the access back: no bit is dropped and
no access is left without an operation (R106, R110; log 9). -/
def Obligations.EveryAccessHasOneWellFormedReading : Prop :=
  ∀ a : BusAccess, (decode a).wellFormed = true ∧ encode (decode a) = a

/-- Words written out from the encodings of R100, R106 and R110 decode to the operations they stand for (that a
write to CMD reads as its command's row, and as WR.CMD where its word is no legal command, is the model's choice of
two rows, log 9). -/
def Obligations.WrittenOutAccessesDecode : Prop :=
  decode (memWrite 0x0010#13 0x00000000#32) = .nop ∧
  decode (memWrite 0x0010#13 0x00000002#32) = .start ∧
  decode (memWrite 0x0010#13 0x00000503#32) = .fpopFmag ∧
  decode (memWrite 0x0010#13 0x00001F03#32) = .wrCmd 0x00001F03#32 ∧
  decode (memWrite 0x0034#13 0x0000001F#32) = .wrFpflags 0x0000001F#32 ∧
  decode (memWrite 0x0014#13 0x3F800000#32) = .feedW 0x3F800000#32 ∧
  decode (memWrite 0x1FFC#13 0x00000001#32) = .wrIgnored 0x7FF#11 0x00000001#32 ∧
  decode (memRead 0x13FC#13) = .rd 0x4FF#11

/-- A host access at byte address `a` reaches the word at `a - (a mod 4)` (R73; of the two treatments R73 allows
this is the model's choice, log 8). -/
def Obligations.MisalignedAccessReachesItsWord : Prop :=
  ∀ (a : ByteAddr) (v : Word),
    memRead a = .read (wordAddr (a.toNat - a.toNat % 4)) ∧
    memWrite a v = .write (wordAddr (a.toNat - a.toNat % 4)) v

/-- When the next event is an access, a step is `exec` of what it decodes to, with the event taken off; so a
well-formed operation's own access runs exactly that operation (R80, R82; the list of events is the model's,
log 1). -/
def Obligations.StepRunsTheDecodedAccess : Prop :=
  (∀ (s : State) (a : BusAccess) (rest : List Event), s.inputs = .access a :: rest →
    step s = exec (decode a) { s with inputs := rest }) ∧
  (∀ (s : State) (i : Instr) (rest : List Event), i.wellFormed = true → s.inputs = .access (encode i) :: rest →
    step s = exec i { s with inputs := rest })

/-- No access faults, traps or stops the block (R81, R260): every step of every state answers a next state. -/
def Obligations.EveryStepAnswersANextState : Prop :=
  ∀ s : State, ∃ t : State, step s = .next t

/-! ## Register writes -/

/-- WR.CTRL, a write at 0x0008, sets IE and EIE from `v[0]` and `v[1]` and changes nothing else, in every state;
CTRL then reads `v[1:0]`, and an enable set while its flag is 1 raises irq at once (R132). -/
def Obligations.WrCtrlSetsTheEnables : Prop :=
  ∀ (v : Word) (s : State),
    decode (.write (wordAddr 0x0008) v) = .wrCtrl v ∧
    exec (.wrCtrl v) s = .next { s with ie := v.getLsbD 0, eie := v.getLsbD 1 } ∧
    State.readWord { s with ie := v.getLsbD 0, eie := v.getLsbD 1 } (wordAddr 0x0008) = v &&& 0x00000003#32 ∧
    ((s.done = true ∧ v.getLsbD 0 = true) ∨ (s.err = true ∧ v.getLsbD 1 = true) →
      State.irq { s with ie := v.getLsbD 0, eie := v.getLsbD 1 } = true)

/-- WR.STATUS, a write at 0x000C, clears DONE by `v[1]` and ERR with ECODE by `v[2]`, and changes nothing else, in
every state (R133). -/
def Obligations.WrStatusClearsDoneAndErr : Prop :=
  ∀ (v : Word) (s : State),
    decode (.write (wordAddr 0x000C) v) = .wrStatus v ∧
    exec (.wrStatus v) s = .next
      { s with done := s.done && !v.getLsbD 1
               err := s.err && !v.getLsbD 2
               ecode := if v.getLsbD 2 then 0#4 else s.ecode }

/-- WR.OPA and WR.OPB, writes at 0x0028 and 0x002C, store all 32 bits, which read back as written, in every state,
and change nothing else (R134). -/
def Obligations.OperandRegistersHoldTheWrittenWord : Prop :=
  ∀ (v : Word) (s : State),
    decode (.write (wordAddr 0x0028) v) = .wrOpa v ∧
    decode (.write (wordAddr 0x002C) v) = .wrOpb v ∧
    exec (.wrOpa v) s = .next { s with opa := v } ∧
    exec (.wrOpb v) s = .next { s with opb := v } ∧
    State.readWord { s with opa := v } (wordAddr 0x0028) = v ∧
    State.readWord { s with opb := v } (wordAddr 0x002C) = v

/-- WR.FPFLAGS, a write at 0x0034, clears the flags named by the 1 bits of `v[4:0]`, leaves the other flags and
changes nothing else (R135). -/
def Obligations.WrFpflagsClearsTheNamedFlags : Prop :=
  ∀ (v : Word) (s : State), ∃ fl : FlagSet,
    decode (.write (wordAddr 0x0034) v) = .wrFpflags v ∧
    exec (.wrFpflags v) s = .next { s with fpflags := fl } ∧
    ∀ k < 5, fl.getLsbD k = (s.fpflags.getLsbD k && !v.getLsbD k)

/-- A write at any offset not in R106's table is ignored, in every state (R151). -/
def Obligations.UnlistedWritesAreIgnored : Prop :=
  ∀ (a : WordAddr) (v : Word) (s : State),
    exec (.wrIgnored a v) s = .next s ∧
    (4 * a.toNat ∉ [0x0008, 0x000C, 0x0010, 0x0014, 0x0018, 0x0028, 0x002C, 0x0034] →
      decode (.write a v) = .wrIgnored a v)

/-! ## Reads -/

/-- A read returns a word and changes no state of the block; repeating it gives the same word (R78; `rdata`, the
word returned, is the model's own field, log 4). -/
def Obligations.ReadsChangeNothingAndRepeat : Prop :=
  ∀ (a : WordAddr) (s : State), ∃ w : Word,
    exec (.rd a) s = .next { s with rdata := w } ∧
    exec (.rd a) { s with rdata := w } = .next { s with rdata := w }

/-- What each register offset reads, in every state (R131's register rows). -/
def Obligations.RegisterReadsFollowTheMap : Prop :=
  ∀ s : State,
    exec (.rd (wordAddr 0x0000)) s = .next { s with rdata := 0x46540100#32 } ∧
    exec (.rd (wordAddr 0x0004)) s = .next { s with rdata := 0x00800100#32 } ∧
    (∃ w : Word, exec (.rd (wordAddr 0x0008)) s = .next { s with rdata := w } ∧
      w.getLsbD 0 = s.ie ∧ w.getLsbD 1 = s.eie ∧ w.extractLsb 31 2 = 0#30) ∧
    (∃ w : Word, exec (.rd (wordAddr 0x000C)) s = .next { s with rdata := w } ∧
      w.getLsbD 0 = decide (s.phase = .running) ∧ w.getLsbD 1 = s.done ∧ w.getLsbD 2 = s.err ∧
      w.getLsbD 3 = ((s.ie && s.done) || (s.eie && s.err)) ∧
      w.extractLsb 7 4 = 0#4 ∧ w.extractLsb 11 8 = s.ecode ∧ w.extractLsb 31 12 = 0#20) ∧
    exec (.rd (wordAddr 0x0010)) s = .next { s with rdata := 0#32 } ∧
    exec (.rd (wordAddr 0x0014)) s = .next { s with rdata := 0#32 } ∧
    exec (.rd (wordAddr 0x0018)) s = .next { s with rdata := 0#32 } ∧
    exec (.rd (wordAddr 0x001C)) s = .next { s with rdata := s.byteCount } ∧
    (∃ w : Word, exec (.rd (wordAddr 0x0020)) s = .next { s with rdata := w } ∧
      w.toNat = s.byteCount.toNat / 4) ∧
    exec (.rd (wordAddr 0x0024)) s = .next { s with rdata := s.outLen } ∧
    exec (.rd (wordAddr 0x0028)) s = .next { s with rdata := s.opa } ∧
    exec (.rd (wordAddr 0x002C)) s = .next { s with rdata := s.opb } ∧
    exec (.rd (wordAddr 0x0030)) s = .next { s with rdata := s.opres } ∧
    (∃ w : Word, exec (.rd (wordAddr 0x0034)) s = .next { s with rdata := w } ∧
      w.extractLsb 4 0 = s.fpflags ∧ w.extractLsb 31 5 = 0#27)

/-- What the SAMPLE window and the result windows read, in every state (R40). -/
def Obligations.DataWindowReads : Prop :=
  ∀ (s : State) (i : Nat),
    (i < 256 →
      exec (.rd (wordAddr (0x0400 + 4 * i))) s = .next
        { s with rdata := if s.phase = .running then 0#32
                          else if i < min (s.byteCount.toNat / 4) 256 then readAt s.sample i else 0#32 } ∧
      exec (.rd (wordAddr (0x0800 + 4 * i))) s = .next
        { s with rdata := if s.phase = .running ∨ s.outLen ≠ 128#32 then 0#32 else readAt s.re i } ∧
      exec (.rd (wordAddr (0x0C00 + 4 * i))) s = .next
        { s with rdata := if s.phase = .running ∨ s.outLen ≠ 128#32 then 0#32 else readAt s.im i }) ∧
    (i < 128 →
      exec (.rd (wordAddr (0x1000 + 4 * i))) s = .next
        { s with rdata := if s.phase = .running ∨ s.outLen ≠ 128#32 then 0#32 else readAt s.mag i } ∧
      exec (.rd (wordAddr (0x1200 + 4 * i))) s = .next
        { s with rdata := if s.phase = .running ∨ s.outLen ≠ 128#32 then 0#32 else readAt s.out i })

/-- What the ROM windows read, in every state, BUSY included (R43, R44, R45). -/
def Obligations.RomWindowReads : Prop :=
  ∀ (s : State) (i : Nat),
    (i < 128 → ∃ w : Word,
      exec (.rd (wordAddr (0x1400 + 4 * i))) s = .next { s with rdata := w } ∧
      (w.extractLsb 7 0).toNat = i * i / 128 ∧
      (w.extractLsb 15 8).toNat = min ((i + 1) * (i + 1) / 128) 128 ∧
      (w.extractLsb 23 16).toNat = min ((i + 1) * (i + 1) / 128) 128 - i * i / 128 ∧
      w.extractLsb 31 24 = 0#8) ∧
    (i < 256 → exec (.rd (wordAddr (0x1800 + 4 * i))) s = .next { s with rdata := hann i }) ∧
    (i < 128 → exec (.rd (wordAddr (0x1C00 + 4 * i))) s = .next { s with rdata := twc i } ∧
      exec (.rd (wordAddr (0x1E00 + 4 * i))) s = .next { s with rdata := tws i })

/-- A read of a reserved offset returns 0, a write to one is ignored, and neither raises an error (R37). -/
def Obligations.ReservedOffsetsReadZeroAndIgnoreWrites : Prop :=
  ∀ (a : WordAddr) (v : Word) (s : State),
    ((0x0038 ≤ 4 * a.toNat ∧ 4 * a.toNat ≤ 0x03FC) ∨ (0x1600 ≤ 4 * a.toNat ∧ 4 * a.toNat ≤ 0x17FC)) →
    exec (decode (.read a)) s = .next { s with rdata := 0#32 } ∧
    exec (decode (.write a v)) s = .next s

/-! ## Commands -/

/-- While BUSY every CMD write is rejected with code 4 and every FEED write with code 5, with no other effect, and
the writes that are accepted leave the run's inputs and the Engine alone (R296). -/
def Obligations.CommandsAndFeedsAreRejectedWhileBusy : Prop :=
  ∀ s : State, s.phase = .running →
    (∀ v : Word, exec (.wrCmd v) s = .next (withErrorRecorded 4#4 s)) ∧
    (∀ i ∈ [Instr.nop, .clear, .start, .fpopFadd, .fpopFsub, .fpopFmul, .fpopFdiv, .fpopFsqrt, .fpopFmag,
        .fpopFclamp], exec i s = .next (withErrorRecorded 4#4 s)) ∧
    (∀ v : Word, exec (.feedB v) s = .next (withErrorRecorded 5#4 s) ∧
      exec (.feedW v) s = .next (withErrorRecorded 5#4 s)) ∧
    (∀ v : Word, ∀ i ∈ [Instr.wrCtrl v, .wrStatus v, .wrOpa v, .wrOpb v, .wrFpflags v],
      ∃ t : State, exec i s = .next t ∧ t.phase = .running ∧ t.sample = s.sample ∧
        t.byteCount = s.byteCount)

/-- `DecodeCmd` (R105): the checks in order BUSY, OPC, reserved bits, FSEL, the first that fails giving the one
code, a rejected word having no other effect, and a legal word doing what its command does. -/
def Obligations.WrCmdDecodesByPriority : Prop :=
  ∀ (v : Word) (s : State),
    (s.phase = .running → exec (.wrCmd v) s = .next (withErrorRecorded 4#4 s)) ∧
    (s.phase = .idle →
      (v.extractLsb 7 0 > 3#8 → exec (.wrCmd v) s = .next (withErrorRecorded 1#4 s)) ∧
      (v.extractLsb 7 0 < 3#8 → v.extractLsb 31 8 ≠ 0#24 →
        exec (.wrCmd v) s = .next (withErrorRecorded 2#4 s)) ∧
      (v.extractLsb 7 0 = 3#8 → v.extractLsb 31 12 ≠ 0#20 →
        exec (.wrCmd v) s = .next (withErrorRecorded 2#4 s)) ∧
      (v.extractLsb 7 0 = 3#8 → v.extractLsb 31 12 = 0#20 → v.extractLsb 11 8 > 6#4 →
        exec (.wrCmd v) s = .next (withErrorRecorded 3#4 s)) ∧
      (v = 0x00000000#32 → exec (.wrCmd v) s = .next s) ∧
      (v = 0x00000001#32 → exec (.wrCmd v) s = .next { s with byteCount := 0#32, asm := #v[0#8, 0#8, 0#8] }) ∧
      (v = 0x00000002#32 → exec (.wrCmd v) s = .next { s with done := false, phase := .running }) ∧
      (v = 0x00000003#32 → exec (.wrCmd v) s = exec .fpopFadd s) ∧
      (v = 0x00000103#32 → exec (.wrCmd v) s = exec .fpopFsub s) ∧
      (v = 0x00000203#32 → exec (.wrCmd v) s = exec .fpopFmul s) ∧
      (v = 0x00000303#32 → exec (.wrCmd v) s = exec .fpopFdiv s) ∧
      (v = 0x00000403#32 → exec (.wrCmd v) s = exec .fpopFsqrt s) ∧
      (v = 0x00000503#32 → exec (.wrCmd v) s = exec .fpopFmag s) ∧
      (v = 0x00000603#32 → exec (.wrCmd v) s = exec .fpopFclamp s))

/-- NOP, CLEAR and START, CMD words 0, 1 and 2: while IDLE, NOP changes nothing, CLEAR sets BYTE_COUNT and ASM to 0,
so that the SAMPLE window reads 0, START clears DONE and makes the Engine RUNNING, and nothing else changes; while
BUSY each is rejected with code 4 (R136, R137, R138, R140; that the write of such a word to CMD reads as the command's
row is the model's choice of two rows, log 9). -/
def Obligations.NopClearStartHaveTheirEffects : Prop :=
  decode (memWrite 0x0010#13 0x00000000#32) = .nop ∧
  decode (memWrite 0x0010#13 0x00000001#32) = .clear ∧
  decode (memWrite 0x0010#13 0x00000002#32) = .start ∧
  ∀ s : State,
    (s.phase = .idle →
      exec .nop s = .next s ∧
      exec .clear s = .next { s with byteCount := 0#32, asm := #v[0#8, 0#8, 0#8] } ∧
      (∀ i < 256, State.readWord { s with byteCount := 0#32, asm := #v[0#8, 0#8, 0#8] }
        (wordAddr (0x0400 + 4 * i)) = 0#32) ∧
      exec .start s = .next { s with done := false, phase := .running }) ∧
    (s.phase = .running → ∀ i ∈ [Instr.nop, .clear, .start], exec i s = .next (withErrorRecorded 4#4 s))

/-- Every FPOP while IDLE writes its operator's word of OPA and OPB to OPRES, ORs the operator's flags into
FPFLAGS and changes nothing else; FSQRT and FCLAMP ignore OPB (R139, R144 to R150). -/
def Obligations.FpopWritesResultAndOrsFlags : Prop :=
  ∀ s : State, s.phase = .idle →
    exec .fpopFadd s = .next { s with opres := (fadd32 s.opa s.opb).w
                                      fpflags := s.fpflags ||| (fadd32 s.opa s.opb).flags } ∧
    exec .fpopFsub s = .next { s with opres := (fsub32 s.opa s.opb).w
                                      fpflags := s.fpflags ||| (fsub32 s.opa s.opb).flags } ∧
    exec .fpopFmul s = .next { s with opres := (fmul32 s.opa s.opb).w
                                      fpflags := s.fpflags ||| (fmul32 s.opa s.opb).flags } ∧
    exec .fpopFdiv s = .next { s with opres := (fdiv32 s.opa s.opb).w
                                      fpflags := s.fpflags ||| (fdiv32 s.opa s.opb).flags } ∧
    exec .fpopFsqrt s = .next { s with opres := (fsqrt32 s.opa).w
                                       fpflags := s.fpflags ||| (fsqrt32 s.opa).flags } ∧
    exec .fpopFmag s = .next { s with opres := (fmag32 s.opa s.opb).w
                                      fpflags := s.fpflags ||| (fmag32 s.opa s.opb).flags } ∧
    exec .fpopFclamp s = .next { s with opres := (fclamp01 s.opa).w
                                        fpflags := s.fpflags ||| (fclamp01 s.opa).flags }

/-! ## Operators -/

/-- The sum and the difference of finite words are correctly rounded (R172, R176, R177). -/
def Obligations.SumAndDifferenceAreCorrectlyRounded : Prop :=
  ∀ a b : Word, isFinite a = true → isFinite b = true →
    CorrectlyRounded (((val a : ℚ) : ℝ) + ((val b : ℚ) : ℝ)) (fadd32 a b) ∧
    CorrectlyRounded (((val a : ℚ) : ℝ) - ((val b : ℚ) : ℝ)) (fsub32 a b)

/-- The product of finite words is correctly rounded (R172, R178). -/
def Obligations.ProductIsCorrectlyRounded : Prop :=
  ∀ a b : Word, isFinite a = true → isFinite b = true →
    CorrectlyRounded (((val a : ℚ) : ℝ) * ((val b : ℚ) : ℝ)) (fmul32 a b)

/-- The quotient of a finite word by a finite nonzero word is correctly rounded (R172, R179). -/
def Obligations.QuotientIsCorrectlyRounded : Prop :=
  ∀ a b : Word, isFinite a = true → isFinite b = true → isZero b = false →
    CorrectlyRounded (((val a : ℚ) : ℝ) / ((val b : ℚ) : ℝ)) (fdiv32 a b)

/-- The root of a zero or of a positive finite word is correctly rounded from the exact real root (R172, R180). -/
def Obligations.RootIsCorrectlyRounded : Prop :=
  ∀ a : Word, isFinite a = true → (isZero a = true ∨ fpSign a = false) →
    CorrectlyRounded (Real.sqrt ((val a : ℚ) : ℝ)) (fsqrt32 a)

/-- With a NaN operand every operator returns 0x7FC00000, NV exactly for a signalling NaN, but `fclamp01`, which
returns `+0` and no flag; a quiet NaN operand adds no flag, `fmag32` raising only those of the other operand's
square; and every NaN an operator returns is 0x7FC00000 (R174). -/
def Obligations.NanOperandsGiveTheCanonicalNan : Prop :=
  (∀ a b : Word, (isNaN a || isNaN b) = true →
    let r : FpResult := ⟨0x7FC00000#32, if (isSNaN a || isSNaN b) = true then 0b10000#5 else 0#5⟩
    fadd32 a b = r ∧ fsub32 a b = r ∧ fmul32 a b = r ∧ fdiv32 a b = r ∧
    (fmag32 a b).w = 0x7FC00000#32 ∧ (fmag32 a b).flags.getLsbD 4 = (isSNaN a || isSNaN b)) ∧
  (∀ a b : Word, isNaN a = true → isSNaN a = false →
    (fmag32 a b).flags = (fmul32 b b).flags ∧ (fmag32 b a).flags = (fmul32 b b).flags) ∧
  (∀ a : Word, isNaN a = true →
    fsqrt32 a = ⟨0x7FC00000#32, if isSNaN a = true then 0b10000#5 else 0#5⟩ ∧
    fclamp01 a = ⟨0x00000000#32, 0#5⟩) ∧
  (∀ (f : FpSel) (a b : Word), isNaN (fpOperator f a b).w = true → (fpOperator f a b).w = 0x7FC00000#32)

/-- Infinite operands and division by zero, for operands that are no NaN; and `fsub32` is `fadd32` with the sign bit
of `b` inverted, for all words (R176, R177, R178, R179, R180). -/
def Obligations.InfiniteAndZeroOperands : Prop :=
  (∀ a b : Word, fsub32 a b = fadd32 a (b ^^^ 0x80000000#32)) ∧
  ∀ a b : Word, isNaN a = false → isNaN b = false →
    (isInf a = true → isInf b = true → fpSign a = fpSign b → fsub32 a b = ⟨0x7FC00000#32, 0b10000#5⟩) ∧
    (isInf a = true → (isInf b = false ∨ fpSign a ≠ fpSign b) → fsub32 a b = ⟨a, 0#5⟩) ∧
    (isInf a = false → isInf b = true → fsub32 a b = ⟨infWord (!fpSign b), 0#5⟩) ∧
    (isInf a = true → isInf b = true → fpSign a ≠ fpSign b → fadd32 a b = ⟨0x7FC00000#32, 0b10000#5⟩) ∧
    (isInf a = true → (isInf b = false ∨ fpSign a = fpSign b) → fadd32 a b = ⟨a, 0#5⟩) ∧
    (isInf a = false → isInf b = true → fadd32 a b = ⟨b, 0#5⟩) ∧
    (isInf a = true → isZero b = true → fmul32 a b = ⟨0x7FC00000#32, 0b10000#5⟩ ∧
      fmul32 b a = ⟨0x7FC00000#32, 0b10000#5⟩) ∧
    (isInf a = true → isZero b = false →
      fmul32 a b = ⟨infWord (fpSign a ^^ fpSign b), 0#5⟩ ∧ fmul32 b a = ⟨infWord (fpSign a ^^ fpSign b), 0#5⟩) ∧
    (isInf a = true → isInf b = true → fdiv32 a b = ⟨0x7FC00000#32, 0b10000#5⟩) ∧
    (isInf a = true → isInf b = false → fdiv32 a b = ⟨infWord (fpSign a ^^ fpSign b), 0#5⟩) ∧
    (isInf a = false → isInf b = true → fdiv32 a b = ⟨zeroWord (fpSign a ^^ fpSign b), 0#5⟩) ∧
    (isZero a = true → isZero b = true → fdiv32 a b = ⟨0x7FC00000#32, 0b10000#5⟩) ∧
    (isFinite a = true → isZero a = false → isZero b = true →
      fdiv32 a b = ⟨infWord (fpSign a ^^ fpSign b), 0b01000#5⟩) ∧
    (isZero a = false → fpSign a = true → fsqrt32 a = ⟨0x7FC00000#32, 0b10000#5⟩) ∧
    (isInf a = true → fpSign a = false → fsqrt32 a = ⟨0x7F800000#32, 0#5⟩)

/-- The signs of zero results, of every product and quotient that is no NaN, and of a nonzero exact sum or
difference, whatever it rounds to (R175). -/
def Obligations.SignsOfZerosProductsAndQuotients : Prop :=
  (∀ a b : Word, isFinite a = true → isFinite b = true → val a + val b = 0 →
    fadd32 a b = ⟨if a = 0x80000000#32 ∧ b = 0x80000000#32 then 0x80000000#32 else 0x00000000#32, 0#5⟩) ∧
  (∀ a b : Word, isFinite a = true → isFinite b = true → val a - val b = 0 →
    fsub32 a b = ⟨if a = 0x80000000#32 ∧ b = 0x00000000#32 then 0x80000000#32 else 0x00000000#32, 0#5⟩) ∧
  (∀ a b : Word, isFinite a = true → isFinite b = true →
    (val a + val b ≠ 0 → fpSign (fadd32 a b).w = decide (val a + val b < 0)) ∧
    (val a - val b ≠ 0 → fpSign (fsub32 a b).w = decide (val a - val b < 0))) ∧
  (∀ a b : Word, isNaN (fmul32 a b).w = false → fpSign (fmul32 a b).w = (fpSign a ^^ fpSign b)) ∧
  (∀ a b : Word, isNaN (fdiv32 a b).w = false → fpSign (fdiv32 a b).w = (fpSign a ^^ fpSign b)) ∧
  fsqrt32 0x80000000#32 = ⟨0x80000000#32, 0#5⟩

/-- `fadd32` never raises UF and never returns zero for a nonzero exact sum; `fsqrt32` raises neither UF nor OF
(the derived claims of R176 and R180). -/
def Obligations.SumsNeverUnderflowRootsNeverOverflow : Prop :=
  (∀ a b : Word, (fadd32 a b).flags.getLsbD 1 = false) ∧
  (∀ a b : Word, isFinite a = true → isFinite b = true → val a + val b ≠ 0 →
    isZero (fadd32 a b).w = false) ∧
  (∀ a : Word, (fsqrt32 a).flags.getLsbD 1 = false ∧ (fsqrt32 a).flags.getLsbD 2 = false)

/-- `fmag32` is the root of the sum of the two squares, each step rounded, with the flags of the four steps ORed;
it does not see the operands' signs, returns `+0`, a positive value, `+∞` or the canonical NaN, `+0` exactly when the
sum rounds to `+0`, and raises NV exactly for a signalling NaN (R149, R181). -/
def Obligations.MagnitudeIgnoresSignsAndIsNeverNegative : Prop :=
  ∀ a b : Word,
    let p := fmul32 a a
    let q := fmul32 b b
    let t := fadd32 p.w q.w
    let r := fsqrt32 t.w
    fmag32 a b = ⟨r.w, p.flags ||| q.flags ||| t.flags ||| r.flags⟩ ∧
    ((fmag32 a b).w = 0x00000000#32 ↔ t.w = 0x00000000#32) ∧
    fmag32 (flipSign a) b = fmag32 a b ∧ fmag32 a (flipSign b) = fmag32 a b ∧
    isMagnitude (fmag32 a b).w = true ∧
    (fmag32 a b).flags.getLsbD 4 = (isSNaN a || isSNaN b)

/-- `fclamp01` clamps to [0, 1] with no flag: NaN and every value at or below 0 give `+0`, values at or above 1
give 1.0, and a value strictly between passes unchanged (R182). -/
def Obligations.ClampReturnsTheClampedValue : Prop :=
  ∀ a : Word,
    (fclamp01 a).flags = 0#5 ∧
    inUnitRange (fclamp01 a).w = true ∧
    (isNaN a = true → (fclamp01 a).w = 0x00000000#32) ∧
    (isInf a = true → (fclamp01 a).w = if fpSign a = true then 0x00000000#32 else 0x3F800000#32) ∧
    (isFinite a = true →
      (val a ≤ 0 → (fclamp01 a).w = 0x00000000#32) ∧
      (1 ≤ val a → (fclamp01 a).w = 0x3F800000#32) ∧
      (0 < val a → val a < 1 → (fclamp01 a).w = a))

/-! ## The byte stream -/

/-- FEED_B, a write at 0x0018: while IDLE it is `FeedByte` of `v[7:0]`: dropped at saturation, into ASM for the first
three bytes of a sample, the whole sample stored with the fourth, and counted but not stored from sample 256 on,
nothing else changing; while BUSY it is rejected with code 5 (R141, R142). -/
def Obligations.FeedBAppendsOneByte : Prop :=
  ∀ (v : Word) (s : State),
    decode (.write (wordAddr 0x0018) v) = .feedB v ∧
    (s.phase = .running → exec (.feedB v) s = .next (withErrorRecorded 5#4 s)) ∧
    (s.phase = .idle → s.byteCount = 0xFFFFFFFF#32 → exec (.feedB v) s = .next s) ∧
    (s.phase = .idle → s.byteCount ≠ 0xFFFFFFFF#32 →
      (s.byteCount.toNat % 4 < 3 → exec (.feedB v) s = .next
        { s with asm := s.asm.setIfInBounds (s.byteCount.toNat % 4) (v.extractLsb 7 0)
                 byteCount := s.byteCount + 1#32 }) ∧
      (s.byteCount.toNat % 4 = 3 → s.byteCount.toNat / 4 < 256 → exec (.feedB v) s = .next
        { s with sample := writeAt s.sample (s.byteCount.toNat / 4)
                   (v.extractLsb 7 0 ++ s.asm[2] ++ s.asm[1] ++ s.asm[0])
                 byteCount := s.byteCount + 1#32 }) ∧
      (s.byteCount.toNat % 4 = 3 → 256 ≤ s.byteCount.toNat / 4 → exec (.feedB v) s = .next
        { s with byteCount := s.byteCount + 1#32 }))

/-- FEED_W, a write at 0x0014, is the same as four FEED_B of `v[7:0]`, `v[15:8]`, `v[23:16]` and `v[31:24]`, in that
order, in every state; while BUSY it is rejected with code 5; and on a word-aligned stream below 1024 bytes it stores
`v` whole in `SAMPLE[BYTE_COUNT div 4]` (R76, R143). -/
def Obligations.FeedWIsFourFeedB : Prop :=
  ∀ (v : Word) (s : State),
    decode (.write (wordAddr 0x0014) v) = .feedW v ∧
    (s.phase = .running → exec (.feedW v) s = .next (withErrorRecorded 5#4 s)) ∧
    (∃ s1 s2 s3 s4 : State,
      exec (.feedB ((v.extractLsb 7 0).setWidth 32)) s = .next s1 ∧
      exec (.feedB ((v.extractLsb 15 8).setWidth 32)) s1 = .next s2 ∧
      exec (.feedB ((v.extractLsb 23 16).setWidth 32)) s2 = .next s3 ∧
      exec (.feedB ((v.extractLsb 31 24).setWidth 32)) s3 = .next s4 ∧
      exec (.feedW v) s = .next s4) ∧
    (s.phase = .idle → s.byteCount.toNat % 4 = 0 → s.byteCount.toNat < 1024 →
      exec (.feedW v) s = .next
        { s with sample := writeAt s.sample (s.byteCount.toNat / 4) v
                 asm := #v[v.extractLsb 7 0, v.extractLsb 15 8, v.extractLsb 23 16]
                 byteCount := s.byteCount + 4#32 })

/-- Feeding any byte string to an IDLE block with `BYTE_COUNT = 0` counts the bytes, saturating, and stores sample
`n` as the little-endian word of bytes `4n` to `4n+3` for every complete sample below 256, keeps the bytes of an
incomplete one in ASM, and leaves the other samples and everything but the stream's state as it was (R31, R46, R75,
R141). -/
def Obligations.FedBytesBecomeLittleEndianSamples : Prop :=
  ∀ (bs : List Byte) (s : State) (rest : List Event), s.phase = .idle → s.byteCount = 0#32 →
    ∃ t : State,
      Host.Core.run Sys2Proof.core bs.length { s with inputs := bs.map feedEvent ++ rest } = .next t ∧
      t = { s with inputs := rest, byteCount := t.byteCount, asm := t.asm, sample := t.sample } ∧
      t.byteCount.toNat = min bs.length 0xFFFFFFFF ∧
      (∀ n < min (bs.length / 4) 256, readAt t.sample n =
        bs.getD (4 * n + 3) 0#8 ++ bs.getD (4 * n + 2) 0#8 ++ bs.getD (4 * n + 1) 0#8 ++ bs.getD (4 * n) 0#8) ∧
      (∀ (j : Nat) (h : j < 3), j < t.byteCount.toNat % 4 →
        t.asm[j] = bs.getD (4 * (t.byteCount.toNat / 4) + j) 0#8) ∧
      (∀ n, bs.length / 4 ≤ n → readAt t.sample n = readAt s.sample n)

/-! ## The run -/

/-- Completion, the Engine's one step (R202, R215): an empty run sets OUT_LEN to 0 and writes no array; any other
publishes RE, IM, MAG and OUT of R200's computation and sets OUT_LEN to 128; both clear BUSY, set DONE and change
nothing else. It comes with the Engine's turn, or when no event is left (logs 1 and 2). -/
def Obligations.CompletionPublishesTheRun : Prop :=
  ∀ (s : State) (rest : List Event), s.phase = .running →
    (s.inputs = .engine :: rest ∨ (s.inputs = [] ∧ rest = [])) →
    (s.byteCount = 0#32 →
      step s = .next { s with inputs := rest, outLen := 0#32, phase := .idle, done := true }) ∧
    (s.byteCount ≠ 0#32 →
      let z := analyse (frame s.byteCount s.sample)
      step s = .next
        { s with inputs := rest, re := z.re, im := z.im, mag := magnitudes z, out := bins (magnitudes z)
                 outLen := 128#32, phase := .idle, done := true })

/-- The frame, the Hann window, the bit reversal and the first 128 magnitudes, word by word (R201, R203, R204,
R210). -/
def Obligations.FrameWindowAndBitReversal : Prop :=
  ∀ (bc : Word) (sample x : Vector Word 256) (z : Spectrum) (i : Nat), i < 256 →
    (i < 128 → readAt (magnitudes z) i = (fmag32 (readAt z.re i) (readAt z.im i)).w) ∧
    (readAt (frame bc sample) i = if i < min (bc.toNat / 4) 256 then readAt sample i else 0x00000000#32) ∧
    readAt (windowed x) i = (fmul32 (readAt x i) (hann i)).w ∧
    readAt (permuted x).re i = readAt x (rev8 (BitVec.ofNat 8 i)).toNat ∧
    readAt (permuted x).im i = 0x00000000#32

/-- A butterfly of two different positions writes `x[e] ± W·x[o]` there, each product and sum rounded, reading both
positions before it writes, and leaves every other position as it was (R206). -/
def Obligations.ButterflyCombinesTheTwoPositions : Prop :=
  ∀ (e o : Nat) (c s : Word) (z : Spectrum), e < 256 → o < 256 → e ≠ o →
    let tr := (fadd32 (fmul32 c (readAt z.re o)).w (fmul32 s (readAt z.im o)).w).w
    let ti := (fsub32 (fmul32 c (readAt z.im o)).w (fmul32 s (readAt z.re o)).w).w
    readAt (butterfly e o c s z).re o = (fsub32 (readAt z.re e) tr).w ∧
    readAt (butterfly e o c s z).im o = (fsub32 (readAt z.im e) ti).w ∧
    readAt (butterfly e o c s z).re e = (fadd32 (readAt z.re e) tr).w ∧
    readAt (butterfly e o c s z).im e = (fadd32 (readAt z.im e) ti).w ∧
    ∀ j, j ≠ e → j ≠ o → readAt (butterfly e o c s z).re j = readAt z.re j ∧
      readAt (butterfly e o c s z).im j = readAt z.im j

/-- The transform is the passes of sizes 2 to 256 in that order; each pass has 128 butterflies, whose position pairs
cover the 256 positions once each; and the butterfly of group start `j0` and offset `k` combines `j0 + k` and
`j0 + k + half` with entry `k·(256/size)`, below 128, of TWC and TWS (R200, R205, R207). -/
def Obligations.PassesPairEveryPositionOnce : Prop :=
  passSizes = [2, 4, 8, 16, 32, 64, 128, 256] ∧
  (∀ x : Vector Word 256, analyse x =
    pass (pass (pass (pass (pass (pass (pass (pass (permuted (windowed x)) 2) 4) 8) 16) 32) 64) 128) 256) ∧
  ∀ size ∈ passSizes,
    (passIndices size).length = 128 ∧
    (∀ n < 256, ((passIndices size).flatMap
      fun jk => [jk.1 + jk.2, jk.1 + jk.2 + size / 2]).count n = 1) ∧
    (∀ jk ∈ passIndices size, jk.2 < size / 2 ∧ jk.1 % size = 0 ∧ jk.2 * (256 / size) < 128) ∧
    (∀ (j0 k : Nat) (z : Spectrum), passButterfly size z (j0, k) =
      butterfly (j0 + k) (j0 + k + size / 2) (twc (k * (256 / size))) (tws (k * (256 / size))) z)

/-- The butterflies of a pass may run in any order: every order gives the same words (R208). -/
def Obligations.OrderWithinAPassDoesNotMatter : Prop :=
  ∀ (size : Nat) (order : List (Nat × Nat)) (z : Spectrum), size ∈ passSizes →
    order.Perm (passIndices size) → order.foldl (passButterfly size) z = pass z size

/-- The bin ranges tile [0, 128) in order, no count exceeds 2, and 32 bins are empty, 64 have one magnitude and 32
have two (R211, R218, R242). -/
def Obligations.BinRangesTileTheMagnitudes : Prop :=
  binStart 0 = 0 ∧ binEnd 127 = 128 ∧
  (∀ i < 127, binStart (i + 1) = binEnd i) ∧
  (∀ i < 128, binStart i ≤ binEnd i ∧ binEnd i ≤ 128 ∧ binCount i ≤ 2) ∧
  ((List.range 128).filter fun i => binCount i = 0).length = 32 ∧
  ((List.range 128).filter fun i => binCount i = 1).length = 64 ∧
  ((List.range 128).filter fun i => binCount i = 2).length = 32

/-- What an output bin is, by its count: `+0` for an empty range, the clamped `4·mag[s]` for count 1, and the
clamped `4·((mag[s] + mag[s+1]) / 2)` for count 2, each step rounded (R212 to R214). -/
def Obligations.OutputBinByCount : Prop :=
  ∀ (mag : Vector Word 128) (i : Nat), i < 128 → (∀ j < 128, isMagnitude (readAt mag j) = true) →
    (binCount i = 0 → readAt (bins mag) i = 0x00000000#32) ∧
    (binCount i = 1 → readAt (bins mag) i =
      (fclamp01 (fmul32 (readAt mag (binStart i)) 0x40800000#32).w).w) ∧
    (binCount i = 2 → readAt (bins mag) i =
      (fclamp01 (fmul32 (fdiv32 (fadd32 (readAt mag (binStart i)) (readAt mag (binStart i + 1))).w
        0x40000000#32).w 0x40800000#32).w).w)

/-- The tables' exact entries and symmetries: `HANN[256-i] = HANN[i]`, the four twiddle identities, no entry NaN
or infinite; and `rev8` reverses the eight bits, is an involution and fixes 16 indices (R14, R240, R241, R244). -/
def Obligations.ConstantTablesHaveTheirSymmetries : Prop :=
  hann 0 = 0x00000000#32 ∧ hann 64 = 0x3F000000#32 ∧ hann 128 = 0x3F800000#32 ∧ hann 192 = 0x3F000000#32 ∧
  twc 0 = 0x3F800000#32 ∧ tws 0 = 0x00000000#32 ∧ twc 64 = 0x00000000#32 ∧ tws 64 = 0x3F800000#32 ∧
  (∀ i < 128, 1 ≤ i → hann (256 - i) = hann i) ∧
  (∀ j < 64, 1 ≤ j → twc (64 + j) = tws j ^^^ 0x80000000#32 ∧ tws (64 + j) = twc j) ∧
  (∀ j < 128, 1 ≤ j → j ≠ 64 → tws (128 - j) = tws j ∧ twc (128 - j) = twc j ^^^ 0x80000000#32) ∧
  (∀ i < 256, hann i ≤ 0x3F800000#32) ∧
  (∀ m < 128, tws m ≤ 0x3F800000#32 ∧ isFinite (twc m) = true) ∧
  (∀ (i : Byte) (k : Nat), k < 8 → (rev8 i).getLsbD k = i.getLsbD (7 - k)) ∧
  (∀ i : Byte, rev8 (rev8 i) = i) ∧
  ((List.range 256).filter fun n => rev8 (BitVec.ofNat 8 n) = BitVec.ofNat 8 n).length = 16

/-- The results of a non-empty run are a function of the frame's words alone (R219). -/
def Obligations.RunResultsDependOnlyOnTheFrame : Prop :=
  ∀ (s t s' t' : State), nextCompletes s = true → nextCompletes t = true →
    s.byteCount ≠ 0#32 → t.byteCount ≠ 0#32 →
    (∀ i < 256, readAt (frame s.byteCount s.sample) i = readAt (frame t.byteCount t.sample) i) →
    step s = .next s' → step t = .next t' →
    s'.re = t'.re ∧ s'.im = t'.im ∧ s'.mag = t'.mag ∧ s'.out = t'.out ∧ s'.outLen = t'.outLen

/-- A trailing partial sample does not change the results: `4k` and `4k + r` bytes with the same complete samples
give identical results, for `k ≥ 1` (R221). -/
def Obligations.TrailingBytesDoNotChangeTheResults : Prop :=
  ∀ (k r : Nat) (s t s' t' : State), 1 ≤ k → 0 < r → r < 4 →
    nextCompletes s = true → nextCompletes t = true →
    s.byteCount.toNat = 4 * k → t.byteCount.toNat = 4 * k + r →
    (∀ i < min k 256, readAt s.sample i = readAt t.sample i) →
    step s = .next s' → step t = .next t' →
    s'.re = t'.re ∧ s'.im = t'.im ∧ s'.mag = t'.mag ∧ s'.out = t'.out ∧ s'.outLen = t'.outLen

/-- A frame of `+0` words gives RE, IM, MAG and OUT all 0x00000000, and a frame of zeros of either sign gives MAG
and OUT all 0x00000000 (R220). -/
def Obligations.ZeroFrameGivesZeroResults : Prop :=
  ∀ x : Vector Word 256,
    ((∀ i < 256, readAt x i = 0x00000000#32) → ∀ m < 256,
      readAt (analyse x).re m = 0x00000000#32 ∧ readAt (analyse x).im m = 0x00000000#32) ∧
    ((∀ i < 256, isZero (readAt x i) = true) → ∀ m < 128,
      readAt (magnitudes (analyse x)) m = 0x00000000#32 ∧
      readAt (bins (magnitudes (analyse x))) m = 0x00000000#32)

/-- MAG and OUT do not depend on a finite first sample, and RE and IM may differ only in the sign of zero words
(R222, first part). -/
def Obligations.FiniteFirstSampleDoesNotShow : Prop :=
  ∀ (x y : Vector Word 256), isFinite (readAt x 0) = true → isFinite (readAt y 0) = true →
    (∀ i < 256, i ≠ 0 → readAt x i = readAt y i) →
    magnitudes (analyse x) = magnitudes (analyse y) ∧
    bins (magnitudes (analyse x)) = bins (magnitudes (analyse y)) ∧
    ∀ m < 256, sameUpToZeroSign (readAt (analyse x).re m) (readAt (analyse y).re m) ∧
      sameUpToZeroSign (readAt (analyse x).im m) (readAt (analyse y).im m)

/-- An infinite or NaN first sample makes every RE and MAG word 0x7FC00000 and every OUT word `+0`, and leaves IM as
it is for a first sample `+0`, up to the sign of zeros (R222, second part). -/
def Obligations.NonFiniteFirstSampleFillsReWithNan : Prop :=
  ∀ x : Vector Word 256, isFinite (readAt x 0) = false →
    (∀ m < 256, readAt (analyse x).re m = 0x7FC00000#32 ∧
      sameUpToZeroSign (readAt (analyse x).im m) (readAt (analyse (writeAt x 0 0x00000000#32)).im m)) ∧
    (∀ m < 128, readAt (magnitudes (analyse x)) m = 0x7FC00000#32 ∧
      readAt (bins (magnitudes (analyse x))) m = 0x00000000#32)

/-- With the opposite twiddle sign, `W = c + i·s`, every MAG and OUT word is the same, RE is the same up to the sign
of zeros, and IM is negated up to the sign of zeros, a NaN staying canonical (R217). -/
def Obligations.TwiddleSignDoesNotShowInMagnitudes : Prop :=
  ∀ x : Vector Word 256,
    magnitudes (analyseConj x) = magnitudes (analyse x) ∧
    bins (magnitudes (analyseConj x)) = bins (magnitudes (analyse x)) ∧
    ∀ m < 256, sameUpToZeroSign (readAt (analyseConj x).re m) (readAt (analyse x).re m) ∧
      negatedUpToZeroSign (readAt (analyseConj x).im m) (readAt (analyse x).im m)

/-- While a run is in progress no sequence of host accesses touches its inputs or the last results: after any such
sequence the Engine is still RUNNING, and SAMPLE, BYTE_COUNT, ASM, the arrays, OUT_LEN and OPRES are as they were
(R86, R279, R296). -/
def Obligations.HostAccessesCannotTouchARun : Prop :=
  ∀ (es rest : List Event) (s : State), s.phase = .running → (∀ e ∈ es, isAccess e = true) →
    ∃ t : State,
      Host.Core.run Sys2Proof.core es.length { s with inputs := es ++ rest } = .next t ∧
      t.inputs = rest ∧ t.phase = .running ∧ t.sample = s.sample ∧ t.byteCount = s.byteCount ∧
      t.asm = s.asm ∧ t.re = s.re ∧ t.im = s.im ∧ t.mag = s.mag ∧ t.out = s.out ∧
      t.outLen = s.outLen ∧ t.opres = s.opres

/-- A run completes: whatever accesses the Host has listed, one step after them the Engine is IDLE, OUT_LEN is 128
or, for an empty buffer, 0, and DONE is 1 (R202, R215, R302; that the Engine moves when nothing is listed is the
model's choice, log 2). -/
def Obligations.EveryRunCompletes : Prop :=
  ∀ (es : List Event) (s : State), s.phase = .running → (∀ e ∈ es, isAccess e = true) →
    ∃ t : State,
      Host.Core.run Sys2Proof.core (es.length + 1) { s with inputs := es } = .next t ∧
      t.phase = .idle ∧ t.done = true ∧
      t.outLen = (if s.byteCount = 0#32 then 0#32 else 128#32)

/-! ## Errors, interrupt, reset -/

/-- The first error stays: while ERR is 1, ECODE keeps its value until a W1C of ERR or a reset clears both (R261,
R270, R272). -/
def Obligations.FirstErrorStaysUntilCleared : Prop :=
  ∀ s t : State, s.err = true → step s = .next t →
    (t.err = true ∧ t.ecode = s.ecode) ∨
    (t.err = false ∧ t.ecode = 0#4 ∧
      (nextIsReset s = true ∨ ∃ v : Word, nextInstr s = some (.wrStatus v) ∧ v.getLsbD 2 = true))

/-- The irq level is `(IE & DONE) | (EIE & ERR)`, and STATUS.IRQ reads it; it falls only in a step where the Host
clears a flag by W1C, clears an enable that is set or starts a run, or at reset; it rises only in a step that
completes a run, sets ERR, or sets the enable of a flag that is 1 (R267; that the write of CMD word 2 reads as START
is the model's choice of two rows, log 9). -/
def Obligations.IrqChangesOnlyByItsCauses : Prop :=
  (∀ s : State, s.irq = ((s.ie && s.done) || (s.eie && s.err)) ∧
    (s.readWord (wordAddr 0x000C)).getLsbD 3 = s.irq) ∧
  ∀ s t : State, step s = .next t →
    (s.irq = true → t.irq = false →
      nextIsReset s = true ∨ nextInstr s = some .start ∨
      ∃ v : Word,
        (nextInstr s = some (.wrStatus v) ∧ (v.getLsbD 1 = true ∨ v.getLsbD 2 = true)) ∨
        (nextInstr s = some (.wrCtrl v) ∧
          ((s.ie = true ∧ v.getLsbD 0 = false) ∨ (s.eie = true ∧ v.getLsbD 1 = false)))) ∧
    (s.irq = false → t.irq = true →
      (nextCompletes s = true ∧ t.done = true) ∨ (s.err = false ∧ t.err = true) ∨
      ∃ v : Word, nextInstr s = some (.wrCtrl v) ∧
        ((s.done = true ∧ s.ie = false ∧ v.getLsbD 0 = true) ∨
         (s.err = true ∧ s.eie = false ∧ v.getLsbD 1 = true)))

/-- Outside reset, what may write each piece of the block's state: CTRL only WR.CTRL; BUSY is set by START while IDLE
and cleared by a completion; DONE is set by a completion and cleared by an accepted START or W1C; ERR is set by a
rejected CMD or FEED write, ECODE only with it, and both are cleared by W1C; OPA and OPB only by their writes; OPRES
only by FPOP; an FPFLAGS bit is set by FPOP and cleared by W1C; BYTE_COUNT and ASM only by CLEAR and FEED; SAMPLE only
by FEED; OUT_LEN and the result arrays only by a completion; and `rdata`, the model's own field (log 4), only by a read
(R26, R31, R33 to R36, R38, R49, R138, R215; a write to CMD reads as a command's row or as WR.CMD by log 9). -/
def Obligations.OnlyNamedOperationsWriteEachRegister : Prop :=
  ∀ s t : State, step s = .next t → nextIsReset s = false →
    ((t.ie ≠ s.ie ∨ t.eie ≠ s.eie) → ∃ v : Word, nextInstr s = some (.wrCtrl v)) ∧
    (s.phase = .idle → t.phase = .running → nextInstr s = some .start) ∧
    (s.phase = .running → t.phase = .idle → nextCompletes s = true) ∧
    (s.done = false → t.done = true → nextCompletes s = true) ∧
    (s.done = true → t.done = false → (s.phase = .idle ∧ nextInstr s = some .start) ∨
      ∃ v : Word, nextInstr s = some (.wrStatus v) ∧ v.getLsbD 1 = true) ∧
    (s.err = false → t.err = true →
      (s.phase = .running ∧ ∃ i : Instr, nextInstr s = some i ∧ isCmdOrFeedWrite i = true) ∨
      ∃ v : Word, nextInstr s = some (.wrCmd v)) ∧
    (s.err = true → t.err = false → t.ecode = 0#4 ∧
      ∃ v : Word, nextInstr s = some (.wrStatus v) ∧ v.getLsbD 2 = true) ∧
    (t.ecode ≠ s.ecode → (s.err = false ∧ t.err = true) ∨
      ∃ v : Word, nextInstr s = some (.wrStatus v) ∧ v.getLsbD 2 = true) ∧
    (t.opa ≠ s.opa → ∃ v : Word, nextInstr s = some (.wrOpa v)) ∧
    (t.opb ≠ s.opb → ∃ v : Word, nextInstr s = some (.wrOpb v)) ∧
    (t.opres ≠ s.opres → ∃ f : FpSel, nextInstr s = some (commandInstr (.fpop f))) ∧
    (∀ k < 5,
      (s.fpflags.getLsbD k = false → t.fpflags.getLsbD k = true →
        ∃ f : FpSel, nextInstr s = some (commandInstr (.fpop f))) ∧
      (s.fpflags.getLsbD k = true → t.fpflags.getLsbD k = false →
        ∃ v : Word, nextInstr s = some (.wrFpflags v) ∧ v.getLsbD k = true)) ∧
    ((t.byteCount ≠ s.byteCount ∨ t.asm ≠ s.asm) → nextInstr s = some .clear ∨
      ∃ v : Word, nextInstr s = some (.feedB v) ∨ nextInstr s = some (.feedW v)) ∧
    (t.sample ≠ s.sample → ∃ v : Word, nextInstr s = some (.feedB v) ∨ nextInstr s = some (.feedW v)) ∧
    ((t.outLen ≠ s.outLen ∨ t.re ≠ s.re ∨ t.im ≠ s.im ∨ t.mag ≠ s.mag ∨ t.out ≠ s.out) →
      nextCompletes s = true) ∧
    (t.rdata ≠ s.rdata → ∃ a : WordAddr, nextInstr s = some (.rd a))

/-- A reset edge, from any state, gives the registers R291's values, abandons a run, lowers irq, and gives an access
presented with it no effect, a read returning 0 (R291, R293, R294). -/
def Obligations.ResetEdgeSetsTheRegisters : Prop :=
  ∀ (s : State) (presented : Option BusAccess) (rest : List Event), s.inputs = .rst presented :: rest →
    ∃ t : State, step s = .next t ∧ t.inputs = rest ∧
      t.ie = false ∧ t.eie = false ∧ t.phase = .idle ∧ t.done = false ∧ t.err = false ∧ t.ecode = 0#4 ∧
      t.byteCount = 0#32 ∧ t.asm = #v[0#8, 0#8, 0#8] ∧ t.outLen = 0#32 ∧ t.opa = 0#32 ∧ t.opb = 0#32 ∧
      t.opres = 0#32 ∧ t.fpflags = 0#5 ∧ t.irq = false ∧
      t.readWord (wordAddr 0x0000) = 0x46540100#32 ∧ t.readWord (wordAddr 0x0004) = 0x00800100#32 ∧
      (∀ a : WordAddr, presented = some (.read a) → t.rdata = 0#32) ∧
      (∀ (a : WordAddr) (v : Word), presented = some (.write a v) →
        step { s with inputs := .rst none :: rest } = .next t)

/-- The state after reset has the values R291 states, and every data window reads 0 (R50, R291). -/
def Obligations.ResetStateHasTheStatedValues : Prop :=
  State.reset.ie = false ∧ State.reset.eie = false ∧ State.reset.phase = .idle ∧ State.reset.done = false ∧
  State.reset.err = false ∧ State.reset.ecode = 0#4 ∧ State.reset.byteCount = 0#32 ∧
  State.reset.asm = #v[0#8, 0#8, 0#8] ∧ State.reset.outLen = 0#32 ∧ State.reset.opa = 0#32 ∧
  State.reset.opb = 0#32 ∧ State.reset.opres = 0#32 ∧ State.reset.fpflags = 0#5 ∧ State.reset.irq = false ∧
  State.reset.statusWord = 0#32 ∧
  ∀ a : WordAddr, 0x0400 ≤ 4 * a.toNat → 4 * a.toNat ≤ 0x13FC → State.reset.readWord a = 0#32

/-- The reset state meets the invariant (R216, R262, R300). -/
def Obligations.ResetStateMeetsTheInvariant : Prop := State.reset.Inv

/-- Every step keeps the invariant: ECODE is 0 exactly when ERR is 0 and at most 5, OUT_LEN is 0 or 128, DONE is 0
during a run, and the published OUT words lie in [0, 1] and MAG words are non-negative or NaN (R210, R216, R262,
R300). -/
def Obligations.EveryStepKeepsTheInvariant : Prop :=
  ∀ s t : State, s.Inv → step s = .next t → t.Inv

/-- Contents the spec leaves unspecified are never observed: two states that agree on all else, whatever stands in
SAMPLE beyond the fed samples, in ASM beyond the pending bytes and in the result arrays while they are not valid,
step to states that agree on all else, the word a read returns included (R40, R46, R50, R292). So the contents the
model chooses at reset (logs 5 and 6) do not show. -/
def Obligations.UnspecifiedContentsAreNeverObserved : Prop :=
  ∀ s t s' : State, SameObservable s t → step s = .next s' →
    ∃ t' : State, step t = .next t' ∧ SameObservable s' t'

/-- The encodings of the HTL statements `wr`, `rd`, `poll`, `rep` and of sequences, and of every pseudo-instruction with
its word, as lines; and the accesses of each line, a poll standing for reads of its address, at least one, and ended
by a word that is its value under its mask (R120, R121, R122; that a poll's number of reads is an argument is log 17's
choice, and that the word of `feedf x` is given is log 18's). -/
def Obligations.HtlPseudoInstructionsEncode : Prop :=
  htlLines (htlCommand .nop) = [.write 0x0010#13 0x00000000#32] ∧
  htlLines (htlCommand .clear) = [.write 0x0010#13 0x00000001#32] ∧
  htlLines (htlCommand .start) = [.write 0x0010#13 0x00000002#32] ∧
  htlLines (htlCommand (.fpop .fadd)) = [.write 0x0010#13 0x00000003#32] ∧
  htlLines (htlCommand (.fpop .fsub)) = [.write 0x0010#13 0x00000103#32] ∧
  htlLines (htlCommand (.fpop .fmul)) = [.write 0x0010#13 0x00000203#32] ∧
  htlLines (htlCommand (.fpop .fdiv)) = [.write 0x0010#13 0x00000303#32] ∧
  htlLines (htlCommand (.fpop .fsqrt)) = [.write 0x0010#13 0x00000403#32] ∧
  htlLines (htlCommand (.fpop .fmag)) = [.write 0x0010#13 0x00000503#32] ∧
  htlLines (htlCommand (.fpop .fclamp)) = [.write 0x0010#13 0x00000603#32] ∧
  (∀ v : Word, htlLines (htlOpa v) = [.write 0x0028#13 v] ∧ htlLines (htlOpb v) = [.write 0x002C#13 v] ∧
    htlLines (htlFeedw v) = [.write 0x0014#13 v]) ∧
  (∀ b : Byte, htlLines (htlFeedb b) = [.write 0x0018#13 (b.setWidth 32)]) ∧
  htlLines htlWait = [.poll 0x000C#13 0x00000001#32 0x00000000#32] ∧
  htlLines htlAckdone = [.write 0x000C#13 0x00000002#32] ∧
  htlLines htlAckerr = [.write 0x000C#13 0x00000004#32] ∧
  (∀ (a : ByteAddr) (m v : Word), htlLines (.wr a v) = [.write a v] ∧ htlLines (.rd a) = [.read a] ∧
    htlLines (.poll a m v) = [.poll a m v]) ∧
  (∀ p q : Htl, htlLines .empty = [] ∧ htlLines (.seq p q) = htlLines p ++ htlLines q) ∧
  (∀ (n : Nat) (p : Htl), htlLines (.rep 0 p) = [] ∧ htlLines (.rep (n + 1) p) = htlLines p ++ htlLines (.rep n p)) ∧
  (∀ (k : Nat) (a : ByteAddr) (m v : Word),
    lineAccesses k (.write a v) = [memWrite a v] ∧ lineAccesses k (.read a) = [memRead a] ∧
    lineAccesses k (.poll a m v) = List.replicate (k + 1) (memRead a)) ∧
  (∀ m v w : Word, pollEnds m v w = true ↔ w &&& m = v)

/-! ## A pass as a whole -/

/-- What a pass of size `size` writes, in terms of the words before it alone: for every group start `j0` and offset `k`
below `half`, the words at `e = j0 + k` and `o = e + half` become `x[e] + W·x[o]` and `x[e] - W·x[o]`, with
`W = TWC[k·(256/size)] - i·TWS[k·(256/size)]`, each product and sum rounded (R205, R206, R207). -/
def Obligations.EachPassCombinesEveryPairWithItsTwiddle : Prop :=
  ∀ (size j0 k : Nat) (z : Spectrum), size ∈ [2, 4, 8, 16, 32, 64, 128, 256] → j0 % size = 0 → j0 < 256 →
    k < size / 2 →
    let e := j0 + k
    let o := j0 + k + size / 2
    let c := twc (k * (256 / size))
    let s := tws (k * (256 / size))
    let tr := (fadd32 (fmul32 c (readAt z.re o)).w (fmul32 s (readAt z.im o)).w).w
    let ti := (fsub32 (fmul32 c (readAt z.im o)).w (fmul32 s (readAt z.re o)).w).w
    readAt (pass z size).re e = (fadd32 (readAt z.re e) tr).w ∧
    readAt (pass z size).im e = (fadd32 (readAt z.im e) ti).w ∧
    readAt (pass z size).re o = (fsub32 (readAt z.re e) tr).w ∧
    readAt (pass z size).im o = (fsub32 (readAt z.im e) ti).w
end

