-- ==== Sys2Proof/Laws/Decode.lean ====
section
/-! SUPPORT. What the two decoders accept, and that they agree with the encoder. -/

namespace Sys2Proof

/-- The fields of a CMD word determine it. -/
theorem cmdWord_toNat (v : Word) :
    v.toNat = (cmdRes v).toNat * 2 ^ 12 + (cmdFsel v).toNat * 2 ^ 8 + (cmdOpc v).toNat := by
  have := v.isLt
  simp only [cmdRes, cmdFsel, cmdOpc, BitVec.extractLsb_toNat, Nat.shiftRight_eq_div_pow]
  omega

theorem cmdHigh_toNat (v : Word) : (cmdHigh v).toNat = (cmdRes v).toNat * 2 ^ 4 + (cmdFsel v).toNat := by
  have := v.isLt
  simp only [cmdHigh, cmdRes, cmdFsel, BitVec.extractLsb_toNat, Nat.shiftRight_eq_div_pow]
  omega

/-- The CMD decoder reads back what the encoder writes. -/
theorem decodeCmd_encodeCmd (c : Command) : decodeCmd (encodeCmd c) = .ok c := by
  cases c with
  | fpop f => cases f <;> rfl
  | nop => rfl
  | clear => rfl
  | start => rfl

theorem encodeCmd_fpSelOf (f : BitVec 4) (h : f.toNat ≤ 6) :
    (encodeCmd (.fpop (fpSelOf f))).toNat = f.toNat * 2 ^ 8 + 3 := by
  revert f
  decide

/-- A word that the CMD decoder accepts is the word of its command. -/
theorem encodeCmd_of_decodeCmd {v : Word} {c : Command} (h : decodeCmd v = .ok c) : encodeCmd c = v := by
  have hv := cmdWord_toNat v
  have hh := cmdHigh_toNat v
  apply BitVec.eq_of_toNat_eq
  unfold decodeCmd at h
  simp only [gt_iff_lt, BitVec.lt_def, ne_eq, ← BitVec.toNat_inj, BitVec.toNat_ofNat] at h
  norm_num at h
  split at h
  · cases h
  split at h
  · cases h
  split at h
  · cases h
  split at h
  · cases h
  rename_i h1 h2 h3 h4
  split at h
  · cases h; simp only [encodeCmd, BitVec.toNat_ofNat]; omega
  split at h
  · cases h; simp only [encodeCmd, BitVec.toNat_ofNat]; omega
  split at h
  · cases h; simp only [encodeCmd, BitVec.toNat_ofNat]; omega
  · rename_i g0 g1 g2
    have h5 : (cmdOpc v).toNat = 3 := by omega
    have h6 : (cmdFsel v).toNat ≤ 6 := by
      by_contra hlt
      exact h4 ⟨h5, by omega⟩
    have h7 : (cmdRes v).toNat = 0 := by
      by_contra hne
      exact h3 ⟨h5, hne⟩
    cases h
    rw [encodeCmd_fpSelOf _ h6]
    omega

/-- The CMD decoder accepts exactly the ten words of R110. -/
theorem decodeCmd_ok_iff (v : Word) : (∃ c, decodeCmd v = .ok c) ↔ isCmdWord v = true := by
  constructor
  · rintro ⟨c, h⟩
    rw [← encodeCmd_of_decodeCmd h]
    cases c with
    | fpop f => cases f <;> rfl
    | nop => rfl
    | clear => rfl
    | start => rfl
  · intro h
    simp only [isCmdWord, Config.cmdWords, List.contains_eq_mem, List.mem_cons, List.not_mem_nil,
      or_false, decide_eq_true_eq] at h
    rcases h with h | h | h | h | h | h | h | h | h | h <;> subst h <;> exact ⟨_, rfl⟩

/-- A well-formed WR.CMD holds a word the CMD decoder refuses. -/
theorem decodeCmdWrite_of_not_cmdWord {v : Word} (h : isCmdWord v = false) : decodeCmdWrite v = .wrCmd v := by
  unfold decodeCmdWrite
  split
  · rename_i c hc
    exact absurd ((decodeCmd_ok_iff v).mp ⟨c, hc⟩) (by simp [h])
  · rfl

/-- A command's access decodes to its row. -/
theorem decode_commandAccess (c : Command) : decode (commandAccess c) = commandInstr c := by
  simp [commandAccess, decode, decodeCmdWrite, decodeCmd_encodeCmd]

/-- A write at an address R106 does not list is ignored. -/
theorem decodeBus_ignored {a : WordAddr} (v : Word) (h : isWriteAddr a = false) :
    decodeBus (.write a v) = .wrIgnored a v := by
  simp only [isWriteAddr, Config.writeOffsets, List.map, List.contains_eq_mem, List.mem_cons,
    List.not_mem_nil, or_false, decide_eq_false_iff_not, not_or] at h
  simp [decodeBus, h]

/-- The address of CMD is a row of R106's table, so an ignored write is none of CMD. -/
theorem ne_offCmd_of_ignored {a : WordAddr} (h : isWriteAddr a = false) : a ≠ wordAddr Config.offCmd := by
  rintro rfl
  exact absurd h (by decide)

end Sys2Proof
end

