-- ==== Sys2Proof/Laws/Fp.lean ====
section
/-! SUPPORT. The fields of a packed word, the integer square root, and how far rounding moves a value. -/

namespace Sys2Proof.Machine

/-! ## Fields of a packed word -/

theorem packWord_toNat (s : Bool) {e f : Nat} (he : e < 256) (hf : f < 2 ^ 23) :
    (packWord s e f).toNat = s.toNat * 2 ^ 31 + e * 2 ^ 23 + f := by
  have he' : e < 2 ^ 8 := he
  have or_low : ∀ x y k : Nat, y < 2 ^ k → x * 2 ^ k ||| y = x * 2 ^ k + y := fun x y k hy => by
    rw [Nat.mul_comm, ← Nat.two_pow_add_eq_or_of_lt hy]
  unfold packWord bit
  rw [BitVec.toNat_append, BitVec.toNat_append, Nat.shiftLeft_eq, Nat.shiftLeft_eq]
  simp only [BitVec.toNat_ofNat, BitVec.toNat_ofBool, Nat.mod_eq_of_lt he', Nat.mod_eq_of_lt hf]
  rw [or_low _ _ _ he', or_low _ _ _ hf]
  ring

theorem fpFrac_packWord (s : Bool) {e f : Nat} (he : e < 256) (hf : f < 2 ^ 23) :
    (fpFrac (packWord s e f)).toNat = f := by
  simp only [fpFrac, BitVec.extractLsb_toNat, packWord_toNat s he hf, Nat.shiftRight_eq_div_pow]
  cases s <;> simp <;> omega

theorem fpExp_packWord (s : Bool) {e f : Nat} (he : e < 256) (hf : f < 2 ^ 23) :
    (fpExp (packWord s e f)).toNat = e := by
  simp only [fpExp, BitVec.extractLsb_toNat, packWord_toNat s he hf, Nat.shiftRight_eq_div_pow]
  cases s <;> simp <;> omega

theorem fpSign_packWord (s : Bool) {e f : Nat} (he : e < 256) (hf : f < 2 ^ 23) :
    fpSign (packWord s e f) = s := by
  have h := packWord_toNat s he hf
  unfold fpSign
  rw [BitVec.getLsbD, Nat.testBit_eq_decide_div_mod_eq, h]
  cases s <;> simp <;> omega

/-! ## Significands -/

theorem significand_lt (w : Word) : significand w < 2 ^ 24 := by
  unfold significand
  have := (fpFrac w).isLt
  split <;> omega

theorem significand_eq_zero_iff (w : Word) : significand w = 0 ↔ isZero w = true := by
  unfold significand isZero
  by_cases h : fpExp w = 0#8
  · simp [h, ← BitVec.toNat_inj]
  · simp [h]

/-! ## The integer square root -/

/-- One run of the bitwise root keeps the root's bracket. -/
theorem isqrtFrom_bracket (k r m : Nat) (hl : r * r ≤ m) (hu : m < (r + 2 ^ k) * (r + 2 ^ k)) :
    isqrtFrom k r m * isqrtFrom k r m ≤ m ∧ m < (isqrtFrom k r m + 1) * (isqrtFrom k r m + 1) := by
  induction k generalizing r with
  | zero => simpa [isqrtFrom] using ⟨hl, hu⟩
  | succ k ih =>
    unfold isqrtFrom
    split
    · rename_i hle
      exact ih _ hle (by rw [Nat.add_assoc, ← Nat.two_mul, ← Nat.pow_succ']; exact hu)
    · rename_i hgt
      exact ih _ hl (Nat.lt_of_not_le hgt)

theorem radicand_lt (a : Word) : radicand a < 2 ^ 78 := by
  unfold radicand
  have h1 := significand_lt a
  have h2 : (unitExp a % 2).toNat ≤ 1 := by omega
  calc significand a * 2 ^ (52 + (unitExp a % 2).toNat)
      ≤ significand a * 2 ^ 53 := Nat.mul_le_mul_left _ (Nat.pow_le_pow_right (by omega) (by omega))
    _ < 2 ^ 78 := by omega

/-- The root of the radicand is its floor square root. -/
theorem rootMagnitude_bracket (a : Word) :
    (rootMagnitude a).n * (rootMagnitude a).n ≤ radicand a ∧
      radicand a < ((rootMagnitude a).n + 1) * ((rootMagnitude a).n + 1) := by
  have := radicand_lt a
  exact isqrtFrom_bracket 39 0 (radicand a) (by omega) (by norm_num; omega)

/-! ## Rounding to an integer -/

/-- Rounding an exact magnitude moves it by at most half a unit. -/
theorem rneShift_near (n d : Nat) :
    2 * n ≤ 2 * (rneShift n d false * 2 ^ d) + 2 ^ d ∧ 2 * (rneShift n d false * 2 ^ d) ≤ 2 * n + 2 ^ d := by
  have hdm := Nat.div_add_mod n (2 ^ d)
  have hlt := Nat.mod_lt n (Nat.two_pow_pos d)
  have hc : 2 ^ d * (n / 2 ^ d) = n / 2 ^ d * 2 ^ d := Nat.mul_comm _ _
  unfold rneShift
  dsimp only
  split
  · rename_i h
    rw [Nat.add_mul, Nat.one_mul]
    have : 2 ^ d ≤ 2 * (n % 2 ^ d) := by rcases h with h | h <;> omega
    omega
  · rename_i h
    push Not at h
    have := h.1
    omega

end Sys2Proof.Machine
end

