-- ==== Sys2Proof/Laws/State.lean ====
section
/-! SUPPORT. What each named update of State leaves in each field, one lemma a field and update. -/

namespace Sys2Proof.Machine

/-! ## raiseError: `raise Error` (R261) -/

@[simp] theorem raiseError_ie (c : ErrorCode) (s : State) : (raiseError c s).ie = s.ie := rfl
@[simp] theorem raiseError_eie (c : ErrorCode) (s : State) : (raiseError c s).eie = s.eie := rfl
@[simp] theorem raiseError_phase (c : ErrorCode) (s : State) : (raiseError c s).phase = s.phase := rfl
@[simp] theorem raiseError_done (c : ErrorCode) (s : State) : (raiseError c s).done = s.done := rfl
@[simp] theorem raiseError_err (c : ErrorCode) (s : State) : (raiseError c s).err = true := rfl
@[simp] theorem raiseError_ecode (c : ErrorCode) (s : State) :
    (raiseError c s).ecode = if s.err then s.ecode else errorCode c := rfl
@[simp] theorem raiseError_byteCount (c : ErrorCode) (s : State) :
    (raiseError c s).byteCount = s.byteCount := rfl
@[simp] theorem raiseError_asm (c : ErrorCode) (s : State) : (raiseError c s).asm = s.asm := rfl
@[simp] theorem raiseError_outLen (c : ErrorCode) (s : State) : (raiseError c s).outLen = s.outLen := rfl
@[simp] theorem raiseError_opa (c : ErrorCode) (s : State) : (raiseError c s).opa = s.opa := rfl
@[simp] theorem raiseError_opb (c : ErrorCode) (s : State) : (raiseError c s).opb = s.opb := rfl
@[simp] theorem raiseError_opres (c : ErrorCode) (s : State) : (raiseError c s).opres = s.opres := rfl
@[simp] theorem raiseError_fpflags (c : ErrorCode) (s : State) : (raiseError c s).fpflags = s.fpflags := rfl
@[simp] theorem raiseError_sample (c : ErrorCode) (s : State) : (raiseError c s).sample = s.sample := rfl
@[simp] theorem raiseError_re (c : ErrorCode) (s : State) : (raiseError c s).re = s.re := rfl
@[simp] theorem raiseError_im (c : ErrorCode) (s : State) : (raiseError c s).im = s.im := rfl
@[simp] theorem raiseError_mag (c : ErrorCode) (s : State) : (raiseError c s).mag = s.mag := rfl
@[simp] theorem raiseError_out (c : ErrorCode) (s : State) : (raiseError c s).out = s.out := rfl
@[simp] theorem raiseError_rdata (c : ErrorCode) (s : State) : (raiseError c s).rdata = s.rdata := rfl
@[simp] theorem raiseError_inputs (c : ErrorCode) (s : State) : (raiseError c s).inputs = s.inputs := rfl

/-! ## clearError: the return from an error (R272) -/

@[simp] theorem clearError_ie (s : State) : (clearError s).ie = s.ie := rfl
@[simp] theorem clearError_eie (s : State) : (clearError s).eie = s.eie := rfl
@[simp] theorem clearError_phase (s : State) : (clearError s).phase = s.phase := rfl
@[simp] theorem clearError_done (s : State) : (clearError s).done = s.done := rfl
@[simp] theorem clearError_err (s : State) : (clearError s).err = false := rfl
@[simp] theorem clearError_ecode (s : State) : (clearError s).ecode = 0#4 := rfl
@[simp] theorem clearError_byteCount (s : State) : (clearError s).byteCount = s.byteCount := rfl
@[simp] theorem clearError_asm (s : State) : (clearError s).asm = s.asm := rfl
@[simp] theorem clearError_outLen (s : State) : (clearError s).outLen = s.outLen := rfl
@[simp] theorem clearError_opa (s : State) : (clearError s).opa = s.opa := rfl
@[simp] theorem clearError_opb (s : State) : (clearError s).opb = s.opb := rfl
@[simp] theorem clearError_opres (s : State) : (clearError s).opres = s.opres := rfl
@[simp] theorem clearError_fpflags (s : State) : (clearError s).fpflags = s.fpflags := rfl
@[simp] theorem clearError_sample (s : State) : (clearError s).sample = s.sample := rfl
@[simp] theorem clearError_re (s : State) : (clearError s).re = s.re := rfl
@[simp] theorem clearError_im (s : State) : (clearError s).im = s.im := rfl
@[simp] theorem clearError_mag (s : State) : (clearError s).mag = s.mag := rfl
@[simp] theorem clearError_out (s : State) : (clearError s).out = s.out := rfl
@[simp] theorem clearError_rdata (s : State) : (clearError s).rdata = s.rdata := rfl
@[simp] theorem clearError_inputs (s : State) : (clearError s).inputs = s.inputs := rfl

/-! ## clearStream: CLEAR (R138) -/

@[simp] theorem clearStream_ie (s : State) : (clearStream s).ie = s.ie := rfl
@[simp] theorem clearStream_eie (s : State) : (clearStream s).eie = s.eie := rfl
@[simp] theorem clearStream_phase (s : State) : (clearStream s).phase = s.phase := rfl
@[simp] theorem clearStream_done (s : State) : (clearStream s).done = s.done := rfl
@[simp] theorem clearStream_err (s : State) : (clearStream s).err = s.err := rfl
@[simp] theorem clearStream_ecode (s : State) : (clearStream s).ecode = s.ecode := rfl
@[simp] theorem clearStream_byteCount (s : State) : (clearStream s).byteCount = 0#32 := rfl
@[simp] theorem clearStream_asm (s : State) : (clearStream s).asm = Vector.replicate 3 0x00#8 := rfl
@[simp] theorem clearStream_outLen (s : State) : (clearStream s).outLen = s.outLen := rfl
@[simp] theorem clearStream_opa (s : State) : (clearStream s).opa = s.opa := rfl
@[simp] theorem clearStream_opb (s : State) : (clearStream s).opb = s.opb := rfl
@[simp] theorem clearStream_opres (s : State) : (clearStream s).opres = s.opres := rfl
@[simp] theorem clearStream_fpflags (s : State) : (clearStream s).fpflags = s.fpflags := rfl
@[simp] theorem clearStream_sample (s : State) : (clearStream s).sample = s.sample := rfl
@[simp] theorem clearStream_re (s : State) : (clearStream s).re = s.re := rfl
@[simp] theorem clearStream_im (s : State) : (clearStream s).im = s.im := rfl
@[simp] theorem clearStream_mag (s : State) : (clearStream s).mag = s.mag := rfl
@[simp] theorem clearStream_out (s : State) : (clearStream s).out = s.out := rfl
@[simp] theorem clearStream_rdata (s : State) : (clearStream s).rdata = s.rdata := rfl
@[simp] theorem clearStream_inputs (s : State) : (clearStream s).inputs = s.inputs := rfl

/-! ## startRun: START (R140) -/

@[simp] theorem startRun_ie (s : State) : (startRun s).ie = s.ie := rfl
@[simp] theorem startRun_eie (s : State) : (startRun s).eie = s.eie := rfl
@[simp] theorem startRun_phase (s : State) : (startRun s).phase = Phase.running := rfl
@[simp] theorem startRun_done (s : State) : (startRun s).done = false := rfl
@[simp] theorem startRun_err (s : State) : (startRun s).err = s.err := rfl
@[simp] theorem startRun_ecode (s : State) : (startRun s).ecode = s.ecode := rfl
@[simp] theorem startRun_byteCount (s : State) : (startRun s).byteCount = s.byteCount := rfl
@[simp] theorem startRun_asm (s : State) : (startRun s).asm = s.asm := rfl
@[simp] theorem startRun_outLen (s : State) : (startRun s).outLen = s.outLen := rfl
@[simp] theorem startRun_opa (s : State) : (startRun s).opa = s.opa := rfl
@[simp] theorem startRun_opb (s : State) : (startRun s).opb = s.opb := rfl
@[simp] theorem startRun_opres (s : State) : (startRun s).opres = s.opres := rfl
@[simp] theorem startRun_fpflags (s : State) : (startRun s).fpflags = s.fpflags := rfl
@[simp] theorem startRun_sample (s : State) : (startRun s).sample = s.sample := rfl
@[simp] theorem startRun_re (s : State) : (startRun s).re = s.re := rfl
@[simp] theorem startRun_im (s : State) : (startRun s).im = s.im := rfl
@[simp] theorem startRun_mag (s : State) : (startRun s).mag = s.mag := rfl
@[simp] theorem startRun_out (s : State) : (startRun s).out = s.out := rfl
@[simp] theorem startRun_rdata (s : State) : (startRun s).rdata = s.rdata := rfl
@[simp] theorem startRun_inputs (s : State) : (startRun s).inputs = s.inputs := rfl

/-! ## fpop: FPOP (R139) -/

@[simp] theorem fpop_ie (f : FpSel) (s : State) : (fpop f s).ie = s.ie := rfl
@[simp] theorem fpop_eie (f : FpSel) (s : State) : (fpop f s).eie = s.eie := rfl
@[simp] theorem fpop_phase (f : FpSel) (s : State) : (fpop f s).phase = s.phase := rfl
@[simp] theorem fpop_done (f : FpSel) (s : State) : (fpop f s).done = s.done := rfl
@[simp] theorem fpop_err (f : FpSel) (s : State) : (fpop f s).err = s.err := rfl
@[simp] theorem fpop_ecode (f : FpSel) (s : State) : (fpop f s).ecode = s.ecode := rfl
@[simp] theorem fpop_byteCount (f : FpSel) (s : State) : (fpop f s).byteCount = s.byteCount := rfl
@[simp] theorem fpop_asm (f : FpSel) (s : State) : (fpop f s).asm = s.asm := rfl
@[simp] theorem fpop_outLen (f : FpSel) (s : State) : (fpop f s).outLen = s.outLen := rfl
@[simp] theorem fpop_opa (f : FpSel) (s : State) : (fpop f s).opa = s.opa := rfl
@[simp] theorem fpop_opb (f : FpSel) (s : State) : (fpop f s).opb = s.opb := rfl
@[simp] theorem fpop_opres (f : FpSel) (s : State) : (fpop f s).opres = (fpOperator f s.opa s.opb).w := rfl
@[simp] theorem fpop_fpflags (f : FpSel) (s : State) :
    (fpop f s).fpflags = accumulateFlags s.fpflags (fpOperator f s.opa s.opb).flags := rfl
@[simp] theorem fpop_sample (f : FpSel) (s : State) : (fpop f s).sample = s.sample := rfl
@[simp] theorem fpop_re (f : FpSel) (s : State) : (fpop f s).re = s.re := rfl
@[simp] theorem fpop_im (f : FpSel) (s : State) : (fpop f s).im = s.im := rfl
@[simp] theorem fpop_mag (f : FpSel) (s : State) : (fpop f s).mag = s.mag := rfl
@[simp] theorem fpop_out (f : FpSel) (s : State) : (fpop f s).out = s.out := rfl
@[simp] theorem fpop_rdata (f : FpSel) (s : State) : (fpop f s).rdata = s.rdata := rfl
@[simp] theorem fpop_inputs (f : FpSel) (s : State) : (fpop f s).inputs = s.inputs := rfl

/-! ## completeEmpty: completion of an empty run (R202, R215) -/

@[simp] theorem completeEmpty_ie (s : State) : (completeEmpty s).ie = s.ie := rfl
@[simp] theorem completeEmpty_eie (s : State) : (completeEmpty s).eie = s.eie := rfl
@[simp] theorem completeEmpty_phase (s : State) : (completeEmpty s).phase = Phase.idle := rfl
@[simp] theorem completeEmpty_done (s : State) : (completeEmpty s).done = true := rfl
@[simp] theorem completeEmpty_err (s : State) : (completeEmpty s).err = s.err := rfl
@[simp] theorem completeEmpty_ecode (s : State) : (completeEmpty s).ecode = s.ecode := rfl
@[simp] theorem completeEmpty_byteCount (s : State) : (completeEmpty s).byteCount = s.byteCount := rfl
@[simp] theorem completeEmpty_asm (s : State) : (completeEmpty s).asm = s.asm := rfl
@[simp] theorem completeEmpty_outLen (s : State) : (completeEmpty s).outLen = 0#32 := rfl
@[simp] theorem completeEmpty_opa (s : State) : (completeEmpty s).opa = s.opa := rfl
@[simp] theorem completeEmpty_opb (s : State) : (completeEmpty s).opb = s.opb := rfl
@[simp] theorem completeEmpty_opres (s : State) : (completeEmpty s).opres = s.opres := rfl
@[simp] theorem completeEmpty_fpflags (s : State) : (completeEmpty s).fpflags = s.fpflags := rfl
@[simp] theorem completeEmpty_sample (s : State) : (completeEmpty s).sample = s.sample := rfl
@[simp] theorem completeEmpty_re (s : State) : (completeEmpty s).re = s.re := rfl
@[simp] theorem completeEmpty_im (s : State) : (completeEmpty s).im = s.im := rfl
@[simp] theorem completeEmpty_mag (s : State) : (completeEmpty s).mag = s.mag := rfl
@[simp] theorem completeEmpty_out (s : State) : (completeEmpty s).out = s.out := rfl
@[simp] theorem completeEmpty_rdata (s : State) : (completeEmpty s).rdata = s.rdata := rfl
@[simp] theorem completeEmpty_inputs (s : State) : (completeEmpty s).inputs = s.inputs := rfl

/-! ## completeWith: completion of a non-empty run (R215) -/

@[simp] theorem completeWith_ie (z : Spectrum) (s : State) : (completeWith z s).ie = s.ie := rfl
@[simp] theorem completeWith_eie (z : Spectrum) (s : State) : (completeWith z s).eie = s.eie := rfl
@[simp] theorem completeWith_phase (z : Spectrum) (s : State) : (completeWith z s).phase = Phase.idle := rfl
@[simp] theorem completeWith_done (z : Spectrum) (s : State) : (completeWith z s).done = true := rfl
@[simp] theorem completeWith_err (z : Spectrum) (s : State) : (completeWith z s).err = s.err := rfl
@[simp] theorem completeWith_ecode (z : Spectrum) (s : State) : (completeWith z s).ecode = s.ecode := rfl
@[simp] theorem completeWith_byteCount (z : Spectrum) (s : State) :
    (completeWith z s).byteCount = s.byteCount := rfl
@[simp] theorem completeWith_asm (z : Spectrum) (s : State) : (completeWith z s).asm = s.asm := rfl
@[simp] theorem completeWith_outLen (z : Spectrum) (s : State) : (completeWith z s).outLen = 128#32 := rfl
@[simp] theorem completeWith_opa (z : Spectrum) (s : State) : (completeWith z s).opa = s.opa := rfl
@[simp] theorem completeWith_opb (z : Spectrum) (s : State) : (completeWith z s).opb = s.opb := rfl
@[simp] theorem completeWith_opres (z : Spectrum) (s : State) : (completeWith z s).opres = s.opres := rfl
@[simp] theorem completeWith_fpflags (z : Spectrum) (s : State) :
    (completeWith z s).fpflags = s.fpflags := rfl
@[simp] theorem completeWith_sample (z : Spectrum) (s : State) : (completeWith z s).sample = s.sample := rfl
@[simp] theorem completeWith_re (z : Spectrum) (s : State) : (completeWith z s).re = z.re := rfl
@[simp] theorem completeWith_im (z : Spectrum) (s : State) : (completeWith z s).im = z.im := rfl
@[simp] theorem completeWith_mag (z : Spectrum) (s : State) : (completeWith z s).mag = magnitudes z := rfl
@[simp] theorem completeWith_out (z : Spectrum) (s : State) :
    (completeWith z s).out = bins (magnitudes z) := rfl
@[simp] theorem completeWith_rdata (z : Spectrum) (s : State) : (completeWith z s).rdata = s.rdata := rfl
@[simp] theorem completeWith_inputs (z : Spectrum) (s : State) : (completeWith z s).inputs = s.inputs := rfl

/-! ## hostRead: a host read (R78) -/

@[simp] theorem hostRead_ie (a : WordAddr) (s : State) : (hostRead a s).ie = s.ie := rfl
@[simp] theorem hostRead_eie (a : WordAddr) (s : State) : (hostRead a s).eie = s.eie := rfl
@[simp] theorem hostRead_phase (a : WordAddr) (s : State) : (hostRead a s).phase = s.phase := rfl
@[simp] theorem hostRead_done (a : WordAddr) (s : State) : (hostRead a s).done = s.done := rfl
@[simp] theorem hostRead_err (a : WordAddr) (s : State) : (hostRead a s).err = s.err := rfl
@[simp] theorem hostRead_ecode (a : WordAddr) (s : State) : (hostRead a s).ecode = s.ecode := rfl
@[simp] theorem hostRead_byteCount (a : WordAddr) (s : State) : (hostRead a s).byteCount = s.byteCount := rfl
@[simp] theorem hostRead_asm (a : WordAddr) (s : State) : (hostRead a s).asm = s.asm := rfl
@[simp] theorem hostRead_outLen (a : WordAddr) (s : State) : (hostRead a s).outLen = s.outLen := rfl
@[simp] theorem hostRead_opa (a : WordAddr) (s : State) : (hostRead a s).opa = s.opa := rfl
@[simp] theorem hostRead_opb (a : WordAddr) (s : State) : (hostRead a s).opb = s.opb := rfl
@[simp] theorem hostRead_opres (a : WordAddr) (s : State) : (hostRead a s).opres = s.opres := rfl
@[simp] theorem hostRead_fpflags (a : WordAddr) (s : State) : (hostRead a s).fpflags = s.fpflags := rfl
@[simp] theorem hostRead_sample (a : WordAddr) (s : State) : (hostRead a s).sample = s.sample := rfl
@[simp] theorem hostRead_re (a : WordAddr) (s : State) : (hostRead a s).re = s.re := rfl
@[simp] theorem hostRead_im (a : WordAddr) (s : State) : (hostRead a s).im = s.im := rfl
@[simp] theorem hostRead_mag (a : WordAddr) (s : State) : (hostRead a s).mag = s.mag := rfl
@[simp] theorem hostRead_out (a : WordAddr) (s : State) : (hostRead a s).out = s.out := rfl
@[simp] theorem hostRead_rdata (a : WordAddr) (s : State) : (hostRead a s).rdata = s.readWord a := rfl
@[simp] theorem hostRead_inputs (a : WordAddr) (s : State) : (hostRead a s).inputs = s.inputs := rfl

/-! ## resetRegisters: reset (R291) -/

@[simp] theorem resetRegisters_ie (s : State) : (resetRegisters s).ie = false := rfl
@[simp] theorem resetRegisters_eie (s : State) : (resetRegisters s).eie = false := rfl
@[simp] theorem resetRegisters_phase (s : State) : (resetRegisters s).phase = Phase.idle := rfl
@[simp] theorem resetRegisters_done (s : State) : (resetRegisters s).done = false := rfl
@[simp] theorem resetRegisters_err (s : State) : (resetRegisters s).err = false := rfl
@[simp] theorem resetRegisters_ecode (s : State) : (resetRegisters s).ecode = 0#4 := rfl
@[simp] theorem resetRegisters_byteCount (s : State) : (resetRegisters s).byteCount = 0#32 := rfl
@[simp] theorem resetRegisters_asm (s : State) : (resetRegisters s).asm = Vector.replicate 3 0#8 := rfl
@[simp] theorem resetRegisters_outLen (s : State) : (resetRegisters s).outLen = 0#32 := rfl
@[simp] theorem resetRegisters_opa (s : State) : (resetRegisters s).opa = 0#32 := rfl
@[simp] theorem resetRegisters_opb (s : State) : (resetRegisters s).opb = 0#32 := rfl
@[simp] theorem resetRegisters_opres (s : State) : (resetRegisters s).opres = 0#32 := rfl
@[simp] theorem resetRegisters_fpflags (s : State) : (resetRegisters s).fpflags = 0#5 := rfl
@[simp] theorem resetRegisters_sample (s : State) : (resetRegisters s).sample = s.sample := rfl
@[simp] theorem resetRegisters_re (s : State) : (resetRegisters s).re = s.re := rfl
@[simp] theorem resetRegisters_im (s : State) : (resetRegisters s).im = s.im := rfl
@[simp] theorem resetRegisters_mag (s : State) : (resetRegisters s).mag = s.mag := rfl
@[simp] theorem resetRegisters_out (s : State) : (resetRegisters s).out = s.out := rfl
@[simp] theorem resetRegisters_rdata (s : State) : (resetRegisters s).rdata = s.rdata := rfl
@[simp] theorem resetRegisters_inputs (s : State) : (resetRegisters s).inputs = s.inputs := rfl

end Sys2Proof.Machine
end

