-- ==== Sys2Proof/Laws/Vec.lean ====
section
/-! SUPPORT. Reading and writing one element of a word array. -/

namespace Sys2Proof.Machine

theorem readAt_of_lt {n : Nat} (v : Vector Word n) {i : Nat} (h : i < n) : readAt v i = v[i] := by
  simp [readAt, h]

theorem readAt_of_ge {n : Nat} (v : Vector Word n) {i : Nat} (h : n ≤ i) : readAt v i = 0#32 := by
  simp [readAt, Nat.not_lt.mpr h]

theorem readAt_ofFn {n : Nat} (f : Fin n → Word) {i : Nat} (h : i < n) :
    readAt (Vector.ofFn f) i = f ⟨i, h⟩ := by
  simp [readAt, h]

@[simp] theorem readAt_replicate (n : Nat) (x : Word) (i : Nat) :
    readAt (Vector.replicate n x) i = if i < n then x else 0#32 := by
  simp [readAt]

/-- The read-after-write law of a word array. -/
theorem readAt_writeAt {n : Nat} (v : Vector Word n) (i j : Nat) (x : Word) :
    readAt (writeAt v i x) j = if i = j ∧ j < n then x else readAt v j := by
  unfold readAt writeAt
  by_cases hj : j < n
  · by_cases hij : i = j
    · subst hij; simp [hj]
    · simp [hj, hij]
  · simp [hj]

theorem readAt_writeAt_self {n : Nat} (v : Vector Word n) {i : Nat} (x : Word) (h : i < n) :
    readAt (writeAt v i x) i = x := by simp [readAt_writeAt, h]

theorem readAt_writeAt_ne {n : Nat} (v : Vector Word n) {i j : Nat} (x : Word) (h : i ≠ j) :
    readAt (writeAt v i x) j = readAt v j := by simp [readAt_writeAt, h]

/-- Word arrays are equal when every element is. -/
theorem eq_of_readAt {n : Nat} {v w : Vector Word n} (h : ∀ i < n, readAt v i = readAt w i) : v = w := by
  apply Vector.ext
  intro i hi
  simpa [readAt_of_lt _ hi] using h i hi

/-- Writes at different places commute. -/
theorem writeAt_comm {n : Nat} (v : Vector Word n) {i j : Nat} (x y : Word) (h : i ≠ j) :
    writeAt (writeAt v i x) j y = writeAt (writeAt v j y) i x := by
  apply eq_of_readAt
  intro k hk
  simp only [readAt_writeAt]
  by_cases hj : j = k <;> by_cases hi : i = k <;> simp_all

end Sys2Proof.Machine
end

