-- ==== Sys2Proof/Laws/Ops.lean ====
section
/-! SUPPORT. One lemma for each shared operation, saying everything it can do, and the inversion of a step. -/

namespace Sys2Proof.Machine

theorem busy_iff (s : State) : s.busy = true ↔ s.phase = .running := by
  simp [State.busy]

theorem not_busy_iff (s : State) : s.busy = false ↔ s.phase = .idle := by
  cases h : s.phase <;> simp [State.busy, h]

/-! ## whenIdle -/

theorem whenIdle_of_idle {s : State} (c : ErrorCode) (f : State → State) (h : s.busy = false) :
    whenIdle c f s = f s := by simp [whenIdle, h]

theorem whenIdle_of_busy {s : State} (c : ErrorCode) (f : State → State) (h : s.busy = true) :
    whenIdle c f s = raiseError c s := by simp [whenIdle, h]

/-! ## FeedByte: its four cases (R141) -/

theorem feedByte_saturated {s : State} (b : Byte) (h : s.byteCount = 0xFFFFFFFF#32) : feedByte b s = s := by
  simp [feedByte, Config.byteCountMax, h]

theorem feedByte_partial {s : State} (b : Byte) (h : s.byteCount ≠ 0xFFFFFFFF#32)
    (hp : s.byteCount.toNat % 4 < 3) :
    feedByte b s = { s with asm := s.asm.setIfInBounds (s.byteCount.toNat % 4) b,
                            byteCount := s.byteCount + 1#32 } := by
  simp [feedByte, Config.byteCountMax, h, hp]

theorem feedByte_store {s : State} (b : Byte) (h : s.byteCount ≠ 0xFFFFFFFF#32)
    (hp : s.byteCount.toNat % 4 = 3) (hn : s.byteCount.toNat / 4 < 256) :
    feedByte b s = { s with sample := writeAt s.sample (s.byteCount.toNat / 4)
                              (sampleWord s.asm[0] s.asm[1] s.asm[2] b),
                            byteCount := s.byteCount + 1#32 } := by
  simp [feedByte, Config.byteCountMax, h, hp, hn]

theorem feedByte_beyond {s : State} (b : Byte) (h : s.byteCount ≠ 0xFFFFFFFF#32)
    (hp : s.byteCount.toNat % 4 = 3) (hn : 256 ≤ s.byteCount.toNat / 4) :
    feedByte b s = { s with byteCount := s.byteCount + 1#32 } := by
  simp [feedByte, Config.byteCountMax, h, hp, Nat.not_lt.mpr hn]

/-- BYTE_COUNT after one fed byte: it counts, and saturates. -/
theorem feedByte_byteCount (b : Byte) (s : State) :
    (feedByte b s).byteCount.toNat = min (s.byteCount.toNat + 1) 0xFFFFFFFF := by
  have hlt := s.byteCount.isLt
  by_cases h : s.byteCount = 0xFFFFFFFF#32
  · rw [feedByte_saturated b h, h]; rfl
  · have hne : s.byteCount.toNat ≠ 0xFFFFFFFF := fun he => h (BitVec.eq_of_toNat_eq (by simpa using he))
    have hadd : (s.byteCount + 1#32).toNat = s.byteCount.toNat + 1 := by
      rw [BitVec.toNat_add]; simp; omega
    have : (feedByte b s).byteCount = s.byteCount + 1#32 := by
      simp only [feedByte, Config.byteCountMax, h, if_false]
      split
      · rfl
      · split <;> rfl
    rw [this, hadd]; omega

/-! A fed byte changes no other field. -/

@[simp] theorem feedByte_ie (b : Byte) (s : State) : (feedByte b s).ie = s.ie := by
  unfold feedByte; dsimp only; split_ifs <;> rfl
@[simp] theorem feedByte_eie (b : Byte) (s : State) : (feedByte b s).eie = s.eie := by
  unfold feedByte; dsimp only; split_ifs <;> rfl
@[simp] theorem feedByte_phase (b : Byte) (s : State) : (feedByte b s).phase = s.phase := by
  unfold feedByte; dsimp only; split_ifs <;> rfl
@[simp] theorem feedByte_done (b : Byte) (s : State) : (feedByte b s).done = s.done := by
  unfold feedByte; dsimp only; split_ifs <;> rfl
@[simp] theorem feedByte_err (b : Byte) (s : State) : (feedByte b s).err = s.err := by
  unfold feedByte; dsimp only; split_ifs <;> rfl
@[simp] theorem feedByte_ecode (b : Byte) (s : State) : (feedByte b s).ecode = s.ecode := by
  unfold feedByte; dsimp only; split_ifs <;> rfl
@[simp] theorem feedByte_outLen (b : Byte) (s : State) : (feedByte b s).outLen = s.outLen := by
  unfold feedByte; dsimp only; split_ifs <;> rfl
@[simp] theorem feedByte_opa (b : Byte) (s : State) : (feedByte b s).opa = s.opa := by
  unfold feedByte; dsimp only; split_ifs <;> rfl
@[simp] theorem feedByte_opb (b : Byte) (s : State) : (feedByte b s).opb = s.opb := by
  unfold feedByte; dsimp only; split_ifs <;> rfl
@[simp] theorem feedByte_opres (b : Byte) (s : State) : (feedByte b s).opres = s.opres := by
  unfold feedByte; dsimp only; split_ifs <;> rfl
@[simp] theorem feedByte_fpflags (b : Byte) (s : State) : (feedByte b s).fpflags = s.fpflags := by
  unfold feedByte; dsimp only; split_ifs <;> rfl
@[simp] theorem feedByte_re (b : Byte) (s : State) : (feedByte b s).re = s.re := by
  unfold feedByte; dsimp only; split_ifs <;> rfl
@[simp] theorem feedByte_im (b : Byte) (s : State) : (feedByte b s).im = s.im := by
  unfold feedByte; dsimp only; split_ifs <;> rfl
@[simp] theorem feedByte_mag (b : Byte) (s : State) : (feedByte b s).mag = s.mag := by
  unfold feedByte; dsimp only; split_ifs <;> rfl
@[simp] theorem feedByte_out (b : Byte) (s : State) : (feedByte b s).out = s.out := by
  unfold feedByte; dsimp only; split_ifs <;> rfl
@[simp] theorem feedByte_rdata (b : Byte) (s : State) : (feedByte b s).rdata = s.rdata := by
  unfold feedByte; dsimp only; split_ifs <;> rfl
@[simp] theorem feedByte_inputs (b : Byte) (s : State) : (feedByte b s).inputs = s.inputs := by
  unfold feedByte; dsimp only; split_ifs <;> rfl

@[simp] theorem feedBytes_nil (s : State) : feedBytes [] s = s := rfl
@[simp] theorem feedBytes_cons (b : Byte) (bs : List Byte) (s : State) :
    feedBytes (b :: bs) s = feedBytes bs (feedByte b s) := rfl

theorem feedBytes_append (bs cs : List Byte) (s : State) :
    feedBytes (bs ++ cs) s = feedBytes cs (feedBytes bs s) := by
  simp [feedBytes]

@[simp] theorem feedBytes_ie (bs : List Byte) (s : State) : (feedBytes bs s).ie = s.ie := by
  induction bs generalizing s with
  | nil => rfl
  | cons b bs ih => simp [ih]
@[simp] theorem feedBytes_eie (bs : List Byte) (s : State) : (feedBytes bs s).eie = s.eie := by
  induction bs generalizing s with
  | nil => rfl
  | cons b bs ih => simp [ih]
@[simp] theorem feedBytes_phase (bs : List Byte) (s : State) : (feedBytes bs s).phase = s.phase := by
  induction bs generalizing s with
  | nil => rfl
  | cons b bs ih => simp [ih]
@[simp] theorem feedBytes_done (bs : List Byte) (s : State) : (feedBytes bs s).done = s.done := by
  induction bs generalizing s with
  | nil => rfl
  | cons b bs ih => simp [ih]
@[simp] theorem feedBytes_err (bs : List Byte) (s : State) : (feedBytes bs s).err = s.err := by
  induction bs generalizing s with
  | nil => rfl
  | cons b bs ih => simp [ih]
@[simp] theorem feedBytes_ecode (bs : List Byte) (s : State) : (feedBytes bs s).ecode = s.ecode := by
  induction bs generalizing s with
  | nil => rfl
  | cons b bs ih => simp [ih]
@[simp] theorem feedBytes_outLen (bs : List Byte) (s : State) : (feedBytes bs s).outLen = s.outLen := by
  induction bs generalizing s with
  | nil => rfl
  | cons b bs ih => simp [ih]
@[simp] theorem feedBytes_opa (bs : List Byte) (s : State) : (feedBytes bs s).opa = s.opa := by
  induction bs generalizing s with
  | nil => rfl
  | cons b bs ih => simp [ih]
@[simp] theorem feedBytes_opb (bs : List Byte) (s : State) : (feedBytes bs s).opb = s.opb := by
  induction bs generalizing s with
  | nil => rfl
  | cons b bs ih => simp [ih]
@[simp] theorem feedBytes_opres (bs : List Byte) (s : State) : (feedBytes bs s).opres = s.opres := by
  induction bs generalizing s with
  | nil => rfl
  | cons b bs ih => simp [ih]
@[simp] theorem feedBytes_fpflags (bs : List Byte) (s : State) : (feedBytes bs s).fpflags = s.fpflags := by
  induction bs generalizing s with
  | nil => rfl
  | cons b bs ih => simp [ih]
@[simp] theorem feedBytes_re (bs : List Byte) (s : State) : (feedBytes bs s).re = s.re := by
  induction bs generalizing s with
  | nil => rfl
  | cons b bs ih => simp [ih]
@[simp] theorem feedBytes_im (bs : List Byte) (s : State) : (feedBytes bs s).im = s.im := by
  induction bs generalizing s with
  | nil => rfl
  | cons b bs ih => simp [ih]
@[simp] theorem feedBytes_mag (bs : List Byte) (s : State) : (feedBytes bs s).mag = s.mag := by
  induction bs generalizing s with
  | nil => rfl
  | cons b bs ih => simp [ih]
@[simp] theorem feedBytes_out (bs : List Byte) (s : State) : (feedBytes bs s).out = s.out := by
  induction bs generalizing s with
  | nil => rfl
  | cons b bs ih => simp [ih]
@[simp] theorem feedBytes_rdata (bs : List Byte) (s : State) : (feedBytes bs s).rdata = s.rdata := by
  induction bs generalizing s with
  | nil => rfl
  | cons b bs ih => simp [ih]
@[simp] theorem feedBytes_inputs (bs : List Byte) (s : State) : (feedBytes bs s).inputs = s.inputs := by
  induction bs generalizing s with
  | nil => rfl
  | cons b bs ih => simp [ih]

theorem feedBytes_byteCount (bs : List Byte) (s : State) :
    (feedBytes bs s).byteCount.toNat = min (s.byteCount.toNat + bs.length) 0xFFFFFFFF := by
  induction bs generalizing s with
  | nil => have := s.byteCount.isLt; simp; omega
  | cons b bs ih => rw [feedBytes_cons, ih, feedByte_byteCount]; simp; omega

/-! ## The Engine and reset -/

theorem engineTurn_of_idle {s : State} (h : s.busy = false) : engineTurn s = s := by simp [engineTurn, h]

theorem engineTurn_of_busy {s : State} (h : s.busy = true) : engineTurn s = complete s := by
  simp [engineTurn, h]

theorem complete_of_empty {s : State} (h : s.byteCount = 0#32) : complete s = completeEmpty s := by
  simp [complete, h]

theorem complete_of_nonempty {s : State} (h : s.byteCount ≠ 0#32) :
    complete s = completeWith (analyse (frame s.byteCount s.sample)) s := by
  simp [complete, h]

/-- A reset edge sets the registers, and answers a read presented with it by 0. -/
theorem resetEdge_cases (p : Option BusAccess) (s : State) :
    resetEdge p s = resetRegisters s ∨
      (∃ a, p = some (.read a)) ∧ resetEdge p s = { resetRegisters s with rdata := 0#32 } := by
  rcases p with _ | a
  · exact .inl rfl
  · cases a with
    | read a => exact .inr ⟨⟨a, rfl⟩, rfl⟩
    | write a v => exact .inl rfl

/-! ## Each operation as a state transformer -/

theorem exec_nop (s : State) : exec .nop s = .next (runCommand .nop s) := rfl
theorem exec_clear (s : State) : exec .clear s = .next (runCommand .clear s) := rfl
theorem exec_start (s : State) : exec .start s = .next (runCommand .start s) := rfl
theorem exec_fpopFadd (s : State) : exec .fpopFadd s = .next (runCommand (.fpop .fadd) s) := rfl
theorem exec_fpopFsub (s : State) : exec .fpopFsub s = .next (runCommand (.fpop .fsub) s) := rfl
theorem exec_fpopFmul (s : State) : exec .fpopFmul s = .next (runCommand (.fpop .fmul) s) := rfl
theorem exec_fpopFdiv (s : State) : exec .fpopFdiv s = .next (runCommand (.fpop .fdiv) s) := rfl
theorem exec_fpopFsqrt (s : State) : exec .fpopFsqrt s = .next (runCommand (.fpop .fsqrt) s) := rfl
theorem exec_fpopFmag (s : State) : exec .fpopFmag s = .next (runCommand (.fpop .fmag) s) := rfl
theorem exec_fpopFclamp (s : State) : exec .fpopFclamp s = .next (runCommand (.fpop .fclamp) s) := rfl
theorem exec_wrCmd (v : Word) (s : State) : exec (.wrCmd v) s = .next (writeCmd v s) := rfl
theorem exec_feedB (v : Word) (s : State) :
    exec (.feedB v) s = .next (whenIdle .feedBusy (feedByte (feedByteOf v)) s) := rfl
theorem exec_feedW (v : Word) (s : State) :
    exec (.feedW v) s = .next (whenIdle .feedBusy (feedBytes (feedBytesOf v)) s) := rfl
theorem exec_rd (a : WordAddr) (s : State) : exec (.rd a) s = .next (hostRead a s) := rfl

/-- A command's row does what the command does. -/
theorem exec_commandInstr (c : Command) (s : State) : exec (commandInstr c) s = .next (runCommand c s) := by
  cases c with
  | fpop f => cases f <;> rfl
  | nop => rfl
  | clear => rfl
  | start => rfl

/-- Every operation completes: no arm faults or refuses. -/
theorem exec_completes (i : Instr) (s : State) : ∃ t, exec i s = .next t := by
  cases i <;> exact ⟨_, rfl⟩

/-- No operation touches the events to come. -/
theorem exec_inputs {i : Instr} {s t : State} (h : exec i s = .next t) : t.inputs = s.inputs := by
  cases i with
  | wrCmd v =>
    rw [exec_wrCmd] at h; cases h
    unfold writeCmd whenIdle; dsimp only
    split
    · rfl
    · split
      · rfl
      · rename_i c _; cases c <;> rfl
  | wrStatus v =>
    simp only [exec, execWrStatus] at h; cases h
    split <;> split <;> rfl
  | feedB v => cases h; unfold whenIdle; split <;> simp
  | feedW v => cases h; unfold whenIdle; split <;> simp
  | _ => cases h; first | rfl | (unfold runCommand whenIdle; split <;> rfl)

/-- What a step can be: the Engine's turn when nothing is listed, an access, the Engine's turn, a reset edge. -/
theorem step_cases {s t : State} (h : step s = .next t) :
    (s.inputs = [] ∧ t = engineTurn s) ∨
    (∃ a rest, s.inputs = .access a :: rest ∧ exec (decode a) { s with inputs := rest } = .next t) ∨
    (∃ rest, s.inputs = .engine :: rest ∧ t = engineTurn { s with inputs := rest }) ∨
    (∃ p rest, s.inputs = .rst p :: rest ∧ t = resetEdge p { s with inputs := rest }) := by
  unfold step at h
  split at h
  · rename_i hi; cases h; exact .inl ⟨hi, rfl⟩
  · rename_i a rest hi; exact .inr (.inl ⟨a, rest, hi, h⟩)
  · rename_i rest hi; cases h; exact .inr (.inr (.inl ⟨rest, hi, rfl⟩))
  · rename_i p rest hi; cases h; exact .inr (.inr (.inr ⟨p, rest, hi, rfl⟩))

end Sys2Proof.Machine
end

