-- ==== Sys2Proof/Laws/PerInstr.lean ====
section
/-! SUPPORT. The statements made per instruction: the format's own decoder reads each operation back. -/

namespace Sys2Proof

/-- A CMD row: its access writes a word that the CMD decoder reads as the row's command. -/
def IsCommandRow (i : Instr) : Prop :=
  ∃ c : Command, commandInstr c = i ∧ encode i = commandAccess c ∧ decodeCmd (encodeCmd c) = .ok c

/-- A BUS row: the BUS decoder reads its access back, where it is well formed. -/
def IsBusRow (i : Instr) : Prop := i.wellFormed = true → decodeBus (encode i) = i

end Sys2Proof

namespace Sys2Proof.Laws.FormatRoundTrip

/-- Each operation is a row of one of the two formats of R100, and that format's decoder reads it back. -/
def Statement (i : Instr) : Prop := IsCommandRow i ∨ IsBusRow i

/-- The row of a command. -/
theorem of_command (c : Command) : Statement (commandInstr c) := by
  refine .inl ⟨c, rfl, ?_, decodeCmd_encodeCmd c⟩
  cases c with
  | fpop f => cases f <;> rfl
  | nop => rfl
  | clear => rfl
  | start => rfl

theorem nop : Statement .nop := of_command .nop
theorem clear : Statement .clear := of_command .clear
theorem start : Statement .start := of_command .start
theorem fpopFadd : Statement .fpopFadd := of_command (.fpop .fadd)
theorem fpopFsub : Statement .fpopFsub := of_command (.fpop .fsub)
theorem fpopFmul : Statement .fpopFmul := of_command (.fpop .fmul)
theorem fpopFdiv : Statement .fpopFdiv := of_command (.fpop .fdiv)
theorem fpopFsqrt : Statement .fpopFsqrt := of_command (.fpop .fsqrt)
theorem fpopFmag : Statement .fpopFmag := of_command (.fpop .fmag)
theorem fpopFclamp : Statement .fpopFclamp := of_command (.fpop .fclamp)
theorem wrCtrl (v : Word) : Statement (.wrCtrl v) := .inr fun _ => rfl
theorem wrStatus (v : Word) : Statement (.wrStatus v) := .inr fun _ => rfl
theorem wrCmd (v : Word) : Statement (.wrCmd v) := .inr fun _ => rfl
theorem feedW (v : Word) : Statement (.feedW v) := .inr fun _ => rfl
theorem feedB (v : Word) : Statement (.feedB v) := .inr fun _ => rfl
theorem wrOpa (v : Word) : Statement (.wrOpa v) := .inr fun _ => rfl
theorem wrOpb (v : Word) : Statement (.wrOpb v) := .inr fun _ => rfl
theorem wrFpflags (v : Word) : Statement (.wrFpflags v) := .inr fun _ => rfl
theorem wrIgnored (a : WordAddr) (v : Word) : Statement (.wrIgnored a v) := .inr fun h =>
  decodeBus_ignored v (by simpa [Instr.wellFormed] using h)
theorem rd (a : WordAddr) : Statement (.rd a) := .inr fun _ => rfl

end Sys2Proof.Laws.FormatRoundTrip
end

