-- ==== Sys2Proof/Laws/Rounding.lean ====
section
/-! SUPPORT. The nearest integer of R172 exists, and tininess after rounding is a bound on the exact value. -/

namespace Sys2Proof.Machine

/-- Every non-negative real has a nearest integer, ties to even. -/
theorem exists_isRne {x : ℝ} (hx : 0 ≤ x) : ∃ N : Nat, IsRne x N := by
  have h1 := Nat.floor_le hx
  have h2 := Nat.lt_floor_add_one x
  rcases lt_trichotomy (x - ⌊x⌋₊) (1 / 2) with h | h | h
  · have h3 : |(⌊x⌋₊ : ℝ) - x| < 1 / 2 := by rw [abs_lt]; constructor <;> linarith
    exact ⟨⌊x⌋₊, h3.le, fun h4 => absurd h4 h3.ne⟩
  · rcases Nat.mod_two_eq_zero_or_one ⌊x⌋₊ with hp | hp
    · have h3 : |(⌊x⌋₊ : ℝ) - x| ≤ 1 / 2 := by rw [abs_le]; constructor <;> linarith
      exact ⟨⌊x⌋₊, h3, fun _ => hp⟩
    · have h3 : |((⌊x⌋₊ + 1 : Nat) : ℝ) - x| ≤ 1 / 2 := by
        push_cast; rw [abs_le]; constructor <;> linarith
      exact ⟨⌊x⌋₊ + 1, h3, fun _ => by omega⟩
  · have h3 : |((⌊x⌋₊ + 1 : Nat) : ℝ) - x| < 1 / 2 := by
      push_cast; rw [abs_lt]; constructor <;> linarith
    exact ⟨⌊x⌋₊ + 1, h3.le, fun h4 => absurd h4 h3.ne⟩

/-- A nearest integer of a value of at least an integer is at least that integer. -/
theorem IsRne.le_of_le {x : ℝ} {N k : Nat} (h : IsRne x N) (hk : (k : ℝ) ≤ x) : k ≤ N := by
  by_contra hlt
  have h1 : (N : ℝ) + 1 ≤ k := by exact_mod_cast Nat.lt_of_not_le hlt
  have h2 := (abs_le.mp h.1).1
  linarith

/-- A nearest integer of a value below the middle of `k - 1` and `k` is below `k`. -/
theorem IsRne.lt_of_lt {x : ℝ} {N k : Nat} (h : IsRne x N) (hk : x < k - 1 / 2) : N < k := by
  by_contra hge
  have h1 : (k : ℝ) ≤ N := by exact_mod_cast Nat.le_of_not_lt hge
  have h2 := (abs_le.mp h.1).2
  linarith

/-- A nearest integer below an even `k` is of a value below the middle of `k - 1` and `k`: the tie goes to `k`. -/
theorem IsRne.lt_half {x : ℝ} {N k : Nat} (h : IsRne x N) (hk : N < k) (he : k % 2 = 0) : x < k - 1 / 2 := by
  have h1 : (N : ℝ) + 1 ≤ k := by exact_mod_cast hk
  have h2 := (abs_le.mp h.1).1
  refine lt_of_le_of_ne (by linarith) fun hx => ?_
  have h3 : (N : ℝ) + 1 = k := by linarith
  have h4 : N + 1 = k := by exact_mod_cast h3
  have h5 : |(N : ℝ) - x| = 1 / 2 := by rw [hx, ← h3, abs_of_nonpos (by linarith)]; ring
  have := h.2 h5
  omega

/-- `m` is tiny after rounding exactly when `0 < |m| < 2^-126 - 2^-151`. -/
theorem tinyAfterRounding_iff (m : ℝ) :
    TinyAfterRounding m ↔ 0 < |m| ∧ |m| < 2 ^ (-126 : ℤ) - 2 ^ (-151 : ℤ) := by
  obtain ⟨u, hu, e0⟩ : ∃ u : ℝ, 0 < u ∧ (2 : ℝ) ^ (-150 : ℤ) = u := ⟨_, by positivity, rfl⟩
  have e1 : (2 : ℝ) ^ (-126 : ℤ) = 2 ^ 24 * u := by rw [← e0]; norm_num
  have e2 : (2 : ℝ) ^ (-151 : ℤ) = 1 / 2 * u := by rw [← e0]; norm_num
  have e3 : (2 : ℝ) ^ (-127 : ℤ) = 2 ^ 23 * u := by rw [← e0]; norm_num
  rw [TinyAfterRounding, e1, e2]
  constructor
  · rintro ⟨E, N, hl, hr, hN, ht⟩
    have hE : (0 : ℝ) < 2 ^ E := by positivity
    have hq : (0 : ℝ) < 2 ^ (E - 23) := by positivity
    have hEq : (2 : ℝ) ^ E = 2 ^ 23 * 2 ^ (E - 23) := by
      rw [zpow_sub₀ two_ne_zero]; field_simp
    refine ⟨hE.trans_le hl, ?_⟩
    have hbig : 2 ^ 23 ≤ N := hN.le_of_le (by
      rw [le_div_iff₀ hq]; push_cast; linarith)
    have hsmall : E < -126 := by
      by_contra hge
      have h1 : (2 : ℝ) ^ (-126 : ℤ) ≤ 2 ^ E := zpow_le_zpow_right₀ one_le_two (by omega)
      have h2 : (2 : ℝ) ^ 23 ≤ N := by exact_mod_cast hbig
      have h3 := mul_le_mul_of_nonneg_right h2 hq.le
      linarith
    rcases eq_or_lt_of_le (show E ≤ -127 by omega) with rfl | hlt
    · rw [show (-127 : ℤ) - 23 = -150 from rfl, e0] at hN ht
      have h1 : N < 2 ^ 24 := by exact_mod_cast lt_of_mul_lt_mul_right ht hu.le
      have h2 := hN.lt_half h1 (by norm_num)
      rw [div_lt_iff₀ hu] at h2
      push_cast at h2
      linarith
    · have h1 : (2 : ℝ) ^ (E + 1) ≤ 2 ^ (-127 : ℤ) := zpow_le_zpow_right₀ one_le_two (by omega)
      rw [e3] at h1
      linarith
  · rintro ⟨hpos, hlt⟩
    obtain ⟨E, hl, hr⟩ := exists_mem_Ico_zpow hpos (one_lt_two (α := ℝ))
    have hq : (0 : ℝ) < 2 ^ (E - 23) := by positivity
    obtain ⟨N, hN⟩ := exists_isRne (div_nonneg (abs_nonneg m) hq.le)
    refine ⟨E, N, hl, hr, hN, ?_⟩
    have hE : E < -126 := by
      by_contra hge
      have h1 : (2 : ℝ) ^ (-126 : ℤ) ≤ 2 ^ E := zpow_le_zpow_right₀ one_le_two (by omega)
      rw [e1] at h1
      linarith
    rcases eq_or_lt_of_le (show E ≤ -127 by omega) with rfl | hlt'
    · rw [show (-127 : ℤ) - 23 = -150 from rfl, e0] at hN ⊢
      have h1 : N < 2 ^ 24 := hN.lt_of_lt (by
        rw [div_lt_iff₀ hu]; push_cast; linarith)
      exact mul_lt_mul_of_pos_right (by exact_mod_cast h1) hu
    · have hEq : (2 : ℝ) ^ (E + 1) = 2 ^ 24 * 2 ^ (E - 23) := by
        rw [zpow_sub₀ two_ne_zero, zpow_add₀ two_ne_zero]; field_simp
      have h1 : |m| / 2 ^ (E - 23) < ((2 ^ 24 + 1 : Nat) : ℝ) - 1 / 2 := by
        rw [div_lt_iff₀ hq]; push_cast; linarith
      have h2 : (N : ℝ) ≤ 2 ^ 24 := by exact_mod_cast Nat.lt_succ_iff.mp (hN.lt_of_lt h1)
      have h3 := mul_le_mul_of_nonneg_right h2 hq.le
      have h4 : (2 : ℝ) ^ (E + 1) ≤ 2 ^ (-127 : ℤ) := zpow_le_zpow_right₀ one_le_two (by omega)
      rw [e3] at h4
      linarith

end Sys2Proof.Machine
end

