-- ==== Sys2Proof/Tests/Slice0.lean ====
section
/-! SUPPORT. Tests: words written out from the encodings, the vectors of spec/95 and R188, one step each, and a witness for the hypotheses of each statement. -/

namespace Sys2Proof.Tests

open Sys2Proof Sys2Proof.Machine

/-- The outcome is a next state of which `p` holds. -/
def onNext (o : Host.Outcome State Fault Refusal) (p : State → Bool) : Bool :=
  match o with
  | .next t => p t
  | .fault _ => false
  | .refused _ => false

/-- A running Engine after reset. -/
def busyState : State := { State.reset with phase := .running }

/-- The reset state with operands in OPA and OPB. -/
def operandState (a b : Word) : State := { State.reset with opa := a, opb := b }

/-- The reset state with BYTE_COUNT at `n`. -/
def countState (n : Word) : State := { State.reset with byteCount := n }

/-- An FPOP leaves this OPRES and these FPFLAGS. -/
def opGives (i : Instr) (a b r : Word) (fl : FlagSet) : Bool :=
  onNext (exec i (operandState a b)) fun t => t.opres == r && t.fpflags == fl

/-! ## WellFormed refuses the ill-formed (R106, R110) -/

theorem test_wf_ignored_at_cmd_refused : (Instr.wrIgnored (wordAddr 0x0010) 0#32).wellFormed = false := by decide
theorem test_wf_ignored_at_fpflags_refused : (Instr.wrIgnored (wordAddr 0x0034) 0#32).wellFormed = false := by decide
theorem test_wf_wrCmd_legal_word_refused : (Instr.wrCmd 0x00000603#32).wellFormed = false := by decide
theorem test_wf_ignored_at_id : (Instr.wrIgnored (wordAddr 0x0000) 0#32).wellFormed = true := by decide
theorem test_wf_wrCmd_illegal_word : (Instr.wrCmd 0x00000703#32).wellFormed = true := by decide

/-! ## Every row's encoding, from the match column of R110 -/

theorem test_decode_nop : decode (.write 4#11 0x00000000#32) = .nop := by decide
theorem test_decode_clear : decode (.write 4#11 0x00000001#32) = .clear := by decide
theorem test_decode_start : decode (.write 4#11 0x00000002#32) = .start := by decide
theorem test_decode_fadd : decode (.write 4#11 0x00000003#32) = .fpopFadd := by decide
theorem test_decode_fsub : decode (.write 4#11 0x00000103#32) = .fpopFsub := by decide
theorem test_decode_fmul : decode (.write 4#11 0x00000203#32) = .fpopFmul := by decide
theorem test_decode_fdiv : decode (.write 4#11 0x00000303#32) = .fpopFdiv := by decide
theorem test_decode_fsqrt : decode (.write 4#11 0x00000403#32) = .fpopFsqrt := by decide
theorem test_decode_fmag : decode (.write 4#11 0x00000503#32) = .fpopFmag := by decide
theorem test_decode_fclamp : decode (.write 4#11 0x00000603#32) = .fpopFclamp := by decide
theorem test_decode_wrCtrl : decode (.write 0b00000000010#11 3#32) = .wrCtrl 3#32 := by decide
theorem test_decode_wrStatus : decode (.write 0b00000000011#11 4#32) = .wrStatus 4#32 := by decide
theorem test_decode_wrCmd : decode (.write 0b00000000100#11 0xFF#32) = .wrCmd 0xFF#32 := by decide
theorem test_decode_feedW : decode (.write 0b00000000101#11 7#32) = .feedW 7#32 := by decide
theorem test_decode_feedB : decode (.write 0b00000000110#11 7#32) = .feedB 7#32 := by decide
theorem test_decode_wrOpa : decode (.write 0b00000001010#11 7#32) = .wrOpa 7#32 := by decide
theorem test_decode_wrOpb : decode (.write 0b00000001011#11 7#32) = .wrOpb 7#32 := by decide
theorem test_decode_wrFpflags : decode (.write 0b00000001101#11 7#32) = .wrFpflags 7#32 := by decide
theorem test_decode_wrIgnored : decode (.write 0b00000001100#11 7#32) = .wrIgnored 12#11 7#32 := by decide
theorem test_decode_rd : decode (.read 0b11111111111#11) = .rd 2047#11 := by decide
theorem test_table_fdiv : decodeTableWord 32 0x303 = some .fpopFdiv := by decide
theorem test_table_illegal : decodeTableWord 32 0x703 = none := by decide
theorem test_table_wrCmd : decodeTableWord 16 0x0010 = some (.wrCmd 0#32) := by decide
theorem test_table_low_bits_ignored : decodeTableWord 16 0x000B = some (.wrCtrl 0#32) := by decide
theorem test_misaligned : memRead 0x0403#13 = memRead 0x0400#13 := by decide

/-! ## Operators: R188 and 95 L2.1 -/

theorem test_fadd_tie : opGives .fpopFadd 0x3F800000 0x33800000 0x3F800000 0b00001 = true := by decide
theorem test_fadd_overflow : opGives .fpopFadd 0x7F7FFFFF 0x7F7FFFFF 0x7F800000 0b00101 = true := by decide
theorem test_fsub_inf : opGives .fpopFsub 0x7F800000 0x7F800000 0x7FC00000 0b10000 = true := by decide
theorem test_fsub_exact : opGives .fpopFsub 0x00800000 0x007FFFFF 0x00000001 0 = true := by decide
theorem test_fsub_finite_inf : opGives .fpopFsub 0x3F800000 0x7F800000 0xFF800000 0 = true := by decide
theorem test_fmul_subnormal : opGives .fpopFmul 0x1E3CE508 0x1E3CE508 0x000116C2 0b00011 = true := by decide
/-- By R172: `(2^24 - 1)·2^-150` has `Nu = 2^24 - 1`, so is tiny, and its tie at `q = -149` rounds to `2^-126`. -/
theorem test_fmul_tiny_rounds_to_normal :
    opGives .fpopFmul 0x00FFFFFF 0x3F000000 0x00800000 0b00011 = true := by decide
theorem test_fmul_tie : opGives .fpopFmul 0x00000003 0x3F000000 0x00000002 0b00011 = true := by decide
theorem test_fdiv_third : opGives .fpopFdiv 0x3F800000 0x40400000 0x3EAAAAAB 0b00001 = true := by decide
theorem test_fdiv_zero : opGives .fpopFdiv 0xBF800000 0x00000000 0xFF800000 0b01000 = true := by decide
theorem test_fsqrt_two : opGives .fpopFsqrt 0x40000000 0 0x3FB504F3 0b00001 = true := by decide
theorem test_fsqrt_subnormal : opGives .fpopFsqrt 0x00000001 0 0x1A3504F3 0b00001 = true := by decide
theorem test_fmag_three_four : opGives .fpopFmag 0xC0400000 0x40800000 0x40A00000 0 = true := by decide
theorem test_fmag_underflow : opGives .fpopFmag 0x00000001 0x00000000 0x00000000 0b00011 = true := by decide
theorem test_fclamp_above : opGives .fpopFclamp 0x3F800001 0 0x3F800000 0 = true := by decide
theorem test_fclamp_negative_zero : opGives .fpopFclamp 0x80000000 0 0x00000000 0 = true := by decide
theorem test_u2f : u2f 1 = 0x3F800000#32 ∧ u2f 2 = 0x40000000#32 := by decide

/-! ## Butterflies: 95 L2.2, positions 0 and 1 -/

/-- One butterfly on `x[0]`, `x[1]`, with ROM index `k`. -/
def butterflyGives (er ei odr odi : Word) (k : Nat) (r : List Word) : Bool :=
  let z0 : Spectrum := ⟨Vector.replicate 256 0#32, Vector.replicate 256 0#32⟩
  let z := butterfly 0 1 (twc k) (tws k)
    ⟨writeAt (writeAt z0.re 0 er) 1 odr, writeAt (writeAt z0.im 0 ei) 1 odi⟩
  [readAt z.re 0, readAt z.im 0, readAt z.re 1, readAt z.im 1] == r

theorem test_butterfly_32 : butterflyGives 0x3F800000 0 0x3F800000 0 32
    [0x3FDA827A, 0xBF3504F3, 0x3E95F61A, 0x3F3504F3] = true := by decide +kernel
theorem test_butterfly_96 : butterflyGives 0x40000000 0x3F800000 0x3F800000 0xBF800000 96
    [0x3F15F61A, 0x3F800000, 0x405A827A, 0x3F800000] = true := by decide +kernel

/-! ## Tables: 95 L2.3, L2.4 -/

theorem test_hann : hann 1 = 0x391DE7DF#32 ∧ hann 255 = 0x391DE7DF#32 ∧ hann 128 = 0x3F800000#32 := by decide
theorem test_twiddle : twc 96 = 0xBF3504F3#32 ∧ tws 96 = 0x3F3504F3#32 := by decide
theorem test_binlut : binlutWord 11 = 0x00010100#32 ∧ binlutWord 91 = 0x00024240#32 ∧
    binlutWord 127 = 0x0002807E#32 := by decide
theorem test_rev8 : rev8 1 = 128#8 ∧ rev8 6 = 96#8 ∧ rev8 0x5A = 0x5A#8 := by decide

/-! ## Commands and errors: 95 L2.6 -/

/-- A CMD write from the reset state leaves this STATUS word. -/
def cmdStatus (v status : Word) : Bool := onNext (exec (.wrCmd v) State.reset) fun t => t.statusWord == status

theorem test_bad_opc_before_reserved : cmdStatus 0xFFFFFFFF 0x00000104 = true := by decide
theorem test_bad_rsv_before_fsel : cmdStatus 0x00001F03 0x00000204 = true := by decide
theorem test_nop_busy :
    onNext (exec .nop busyState) (fun t => t.statusWord == 0x00000405#32) = true := by decide
theorem test_clear : onNext (exec .clear (countState 5)) (fun t => t.byteCount == 0#32) = true := by decide
theorem test_start :
    onNext (exec .start { State.reset with done := true }) (fun t => t.statusWord == 1#32) = true := by decide
theorem test_empty_completion : onNext (step busyState)
    (fun t => t.statusWord == 2#32 && t.outLen == 0#32) = true := by decide
theorem test_first_error_sticky :
    onNext (exec (.wrCmd 0x703) { State.reset with err := true, ecode := 1 }) (fun t => t.ecode == 1#4) = true := by
  decide

/-! ## Register accesses: the examples of R131 to R135 and 95 L2.6 -/

theorem test_wrCtrl : onNext (exec (.wrCtrl 0xFFFFFFFF) State.reset) (fun t => t.ctrlWord == 3#32) = true := by
  decide
theorem test_wrStatus :
    onNext (exec (.wrStatus 4) { State.reset with done := true, err := true, ecode := 1 })
      (fun t => t.statusWord == 0x00000002#32) = true := by decide
theorem test_wrOpa : onNext (exec (.wrOpa 0x40400000) State.reset) (fun t => t.opa == 0x40400000#32) = true := by
  decide
theorem test_wrOpb : onNext (exec (.wrOpb 0x7F800001) busyState) (fun t => t.opb == 0x7F800001#32) = true := by
  decide
theorem test_wrFpflags :
    onNext (exec (.wrFpflags 0x01) { State.reset with fpflags := 0x11 }) (fun t => t.fpflags == 0x10#5) = true := by
  decide
theorem test_wrIgnored :
    onNext (exec (.wrIgnored (wordAddr 0x1200) 0x3F800000) State.reset) (fun t => readAt t.out 0 == 0#32) = true := by
  decide
theorem test_rd_id :
    onNext (exec (.rd (wordAddr 0)) State.reset) (fun t => t.rdata == 0x46540100#32) = true := by decide
theorem test_rd_irq :
    onNext (exec (.rd (wordAddr 0x000C)) { State.reset with done := true, ie := true })
      (fun t => t.rdata == 0x0000000A#32) = true := by decide

/-! ## The byte stream: 95 L2.5 -/

theorem test_feedW_straddles :
    onNext (exec (.feedW 0x123F8000) (countState 1))
      (fun t => t.byteCount == 5#32 && readAt t.sample 0 == 0x3F800000#32 && t.asm[0] == 0x12#8) = true := by
  decide +kernel
theorem test_feedB_low_byte_only :
    onNext (exec (.feedB 0xFFFFFF41) State.reset) (fun t => t.byteCount == 1#32 && t.asm[0] == 0x41#8) = true := by
  decide
theorem test_feedB_saturates :
    onNext (exec (.feedB 0) (countState 0xFFFFFFFF)) (fun t => t.byteCount == 0xFFFFFFFF#32) = true := by decide
theorem test_feedW_busy : onNext (exec (.feedW 1) busyState) (fun t => t.statusWord == 0x505#32) = true := by decide

/-! ## A table word placed as the next access runs as the first instruction (log 10) -/

theorem test_withFetchWord_start :
    onNext (step (State.reset.withFetchWord 32 2)) (fun t => t.busy && t.inputs == []) = true := by decide
theorem test_withFetchWord_wrCmd :
    onNext (step (State.reset.withFetchWord 16 0x0010)) (fun t => t.statusWord == 0#32) = true := by decide

/-! ## Witnesses: each statement's hypotheses are met together -/

theorem witness_DecodeOfEncodeIsIdentity :
    (Instr.wrCmd 0x00000004#32).wellFormed = true ∧ (Instr.wrIgnored (wordAddr 0x0038) 1#32).wellFormed = true := by
  decide

theorem witness_StepRunsTheDecodedAccess :
    Instr.start.wellFormed = true ∧
      (State.reset.withFetchWord 32 2).inputs = .access (encode .start) :: [] := by decide

/-- Each of the two flags with its enable. -/
theorem witness_WrCtrlSetsTheEnables :
    (({ State.reset with done := true } : State).done = true ∧ (1#32).getLsbD 0 = true) ∧
    ({ State.reset with err := true } : State).err = true ∧ (2#32).getLsbD 1 = true := by decide

theorem witness_UnlistedWritesAreIgnored :
    ∀ a ∈ [wordAddr 0x0000, wordAddr 0x0038, wordAddr 0x1FFC],
      4 * a.toNat ∉ [0x0008, 0x000C, 0x0010, 0x0014, 0x0018, 0x0028, 0x002C, 0x0034] := by decide

/-- Each window's first and last word is where its clause says. -/
theorem witness_DataWindowReads :
    onNext (exec (.rd (wordAddr (0x0400 + 4 * 255))) { countState 1024 with sample := Vector.replicate 256 7 })
      (fun t => t.rdata == 7#32) = true ∧
    onNext (exec (.rd (wordAddr (0x0800 + 4 * 255))) { State.reset with outLen := 128, re := Vector.replicate 256 8 })
      (fun t => t.rdata == 8#32) = true ∧
    onNext (exec (.rd (wordAddr (0x0C00 + 4 * 255))) { State.reset with outLen := 128, im := Vector.replicate 256 9 })
      (fun t => t.rdata == 9#32) = true ∧
    onNext (exec (.rd (wordAddr (0x1000 + 4 * 127))) { State.reset with outLen := 128, mag := Vector.replicate 128 10 })
      (fun t => t.rdata == 10#32) = true ∧
    onNext (exec (.rd (wordAddr (0x1200 + 4 * 127))) { State.reset with outLen := 128, out := Vector.replicate 128 11 })
      (fun t => t.rdata == 11#32) = true := by decide

theorem witness_RomWindowReads :
    onNext (exec (.rd (wordAddr (0x1400 + 4 * 127))) busyState) (fun t => t.rdata == 0x0002807E#32) = true ∧
    onNext (exec (.rd (wordAddr (0x1800 + 4 * 255))) busyState) (fun t => t.rdata == 0x391DE7DF#32) = true ∧
    onNext (exec (.rd (wordAddr (0x1C00 + 4 * 127))) busyState) (fun t => t.rdata == 0xBF7FEC43#32) = true ∧
    onNext (exec (.rd (wordAddr (0x1E00 + 4 * 127))) busyState) (fun t => t.rdata == 0x3CC90AB0#32) = true := by
  decide

theorem witness_ReservedOffsetsReadZeroAndIgnoreWrites :
    ∀ off ∈ [0x0038, 0x03FC, 0x1600, 0x17FC],
      (0x0038 ≤ 4 * (wordAddr off).toNat ∧ 4 * (wordAddr off).toNat ≤ 0x03FC) ∨
      (0x1600 ≤ 4 * (wordAddr off).toNat ∧ 4 * (wordAddr off).toNat ≤ 0x17FC) := by decide

theorem witness_CommandsAndFeedsAreRejectedWhileBusy : busyState.phase = .running := by decide

/-- A word for each clause on an illegal word, at the edge of its field. -/
theorem witness_WrCmdDecodesByPriority :
    State.reset.phase = .idle ∧ busyState.phase = .running ∧
    (0x00000004#32).extractLsb 7 0 > 3#8 ∧
    ((0x00000100#32).extractLsb 7 0 < 3#8 ∧ (0x00000100#32).extractLsb 31 8 ≠ 0#24) ∧
    ((0x00001003#32).extractLsb 7 0 = 3#8 ∧ (0x00001003#32).extractLsb 31 12 ≠ 0#20) ∧
    ((0x00000703#32).extractLsb 7 0 = 3#8 ∧ (0x00000703#32).extractLsb 31 12 = 0#20 ∧
      (0x00000703#32).extractLsb 11 8 > 6#4) := by decide

theorem witness_NopClearStartHaveTheirEffects : State.reset.phase = .idle ∧ busyState.phase = .running := by decide

theorem witness_FpopWritesResultAndOrsFlags : (operandState 0x3F800000 0x40000000).phase = .idle := by decide

theorem witness_SumAndDifferenceAreCorrectlyRounded :
    isFinite 0x7F7FFFFF#32 = true ∧ isFinite 0x80000001#32 = true := by decide

/-- A value for each clause of CorrectlyRounded: the overflow threshold itself, one below it, and a tiny one. -/
theorem witness_CorrectlyRounded :
    overflowBound ≤ |overflowBound| ∧ |(0 : ℝ)| < overflowBound ∧ TinyAfterRounding ((2 : ℝ) ^ (-149 : ℤ)) := by
  refine ⟨le_abs_self _, by norm_num [overflowBound], (tinyAfterRounding_iff _).mpr ?_⟩
  rw [abs_of_pos (by positivity)]
  norm_num

theorem witness_ProductIsCorrectlyRounded : isFinite 0x1E3CE508#32 = true ∧ isFinite 0xFF7FFFFF#32 = true := by decide

theorem witness_QuotientIsCorrectlyRounded :
    isFinite 0x3F800000#32 = true ∧ isFinite 0x00000001#32 = true ∧ isZero 0x00000001#32 = false := by decide

theorem witness_RootIsCorrectlyRounded :
    isFinite 0x80000000#32 = true ∧ isZero 0x80000000#32 = true ∧
    isFinite 0x00000001#32 = true ∧ fpSign 0x00000001#32 = false := by decide

theorem witness_NanOperandsGiveTheCanonicalNan :
    (isNaN 0xFFC12345#32 = true ∧ isSNaN 0xFFC12345#32 = false) ∧ (isNaN 0xFFC12345#32 || isNaN 0x3F800000#32) = true ∧ isNaN 0x7F800001#32 = true ∧
    isNaN (fpOperator .fdiv 0x00000000#32 0x00000000#32).w = true := by decide

/-- Operands for each clause. -/
theorem witness_InfiniteAndZeroOperands :
    (isInf 0x7F800000#32 = true ∧ isInf 0xFF800000#32 = true ∧ fpSign 0x7F800000#32 ≠ fpSign 0xFF800000#32) ∧
    (isNaN 0x7F800000#32 = false ∧ isNaN 0xFF800000#32 = false) ∧
    (isInf 0x7F7FFFFF#32 = false ∧ isZero 0x7F7FFFFF#32 = false ∧ isFinite 0x7F7FFFFF#32 = true) ∧
    (isZero 0x80000000#32 = true ∧ isNaN 0x80000000#32 = false ∧ isNaN 0x7F7FFFFF#32 = false) ∧
    (isNaN 0x00000000#32 = false ∧ isInf 0x00000000#32 = false) ∧
    (isZero 0x80000001#32 = false ∧ fpSign 0x80000001#32 = true ∧ isNaN 0x80000001#32 = false) := by decide

theorem witness_SignsOfZerosProductsAndQuotients :
    (isFinite 0x3F800000#32 = true ∧ isFinite 0xBF800000#32 = true ∧ val 0x3F800000#32 + val 0xBF800000#32 = 0) ∧
    (val 0x3F800000#32 - val 0x3F800000#32 = 0) ∧
    (val 0x00000001#32 + val 0x00000001#32 ≠ 0 ∧ val 0x00000001#32 - val 0x00000000#32 ≠ 0) ∧
    isNaN (fmul32 0x80000000#32 0x3F800000#32).w = false ∧
    isNaN (fdiv32 0x80000000#32 0x3F800000#32).w = false := by
  have g1 : unitExp 0x00000001#32 = -149 := by decide
  have g2 : significand 0x00000001#32 = 1 := by decide
  have g3 : fpSign 0x00000001#32 = false := by decide
  have g4 : significand 0x00000000#32 = 0 := by decide
  refine ⟨⟨by decide, by decide, ?_⟩, sub_self _,
    ⟨by simp [val, g1, g2, g3], by simp [val, g1, g2, g3, g4]⟩, by decide, by decide⟩
  have h1 : unitExp 0x3F800000#32 = -23 := by decide
  have h2 : unitExp 0xBF800000#32 = -23 := by decide
  have h3 : significand 0x3F800000#32 = significand 0xBF800000#32 := by decide
  have h4 : fpSign 0x3F800000#32 = false := by decide
  have h5 : fpSign 0xBF800000#32 = true := by decide
  simp [val, h1, h2, h3, h4, h5]

theorem witness_SumsNeverUnderflowRootsNeverOverflow : val 0x00000001#32 + val 0x00000001#32 ≠ 0 := by
  have h1 : unitExp 0x00000001#32 = -149 := by decide
  have h2 : significand 0x00000001#32 = 1 := by decide
  have h3 : fpSign 0x00000001#32 = false := by decide
  simp [val, h1, h2, h3]

/-- A word for each clause on a value: `val` at 0, at 1, and strictly between. -/
theorem witness_ClampReturnsTheClampedValue :
    isNaN 0x7F800001#32 = true ∧ isInf 0xFF800000#32 = true ∧
    (isFinite 0x80000000#32 = true ∧ val 0x80000000#32 ≤ 0) ∧
    (isFinite 0x3F800000#32 = true ∧ 1 ≤ val 0x3F800000#32) ∧
    (isFinite 0x3F000000#32 = true ∧ 0 < val 0x3F000000#32 ∧ val 0x3F000000#32 < 1) := by
  have h1 : unitExp 0x3F800000#32 = -23 := by decide
  have h2 : significand 0x3F800000#32 = 8388608 := by decide
  have h3 : fpSign 0x3F800000#32 = false := by decide
  have g1 : unitExp 0x3F000000#32 = -24 := by decide
  have g2 : significand 0x3F000000#32 = 8388608 := by decide
  have g3 : fpSign 0x3F000000#32 = false := by decide
  have k2 : significand 0x80000000#32 = 0 := by decide
  refine ⟨by decide, by decide, ⟨by decide, ?_⟩, ⟨by decide, ?_⟩, by decide, ?_, ?_⟩
  · simp [val, k2]
  · norm_num [val, h1, h2, h3, zpow_neg]
  · norm_num [val, g1, g2, g3, zpow_neg]
  · norm_num [val, g1, g2, g3, zpow_neg]

/-- A BYTE_COUNT for each clause, at the edge of its range. -/
theorem witness_FeedBAppendsOneByte :
    State.reset.phase = .idle ∧ busyState.phase = .running ∧ (countState 0xFFFFFFFF).byteCount = 0xFFFFFFFF#32 ∧
    (2#32 ≠ 0xFFFFFFFF#32 ∧ (2#32).toNat % 4 < 3) ∧
    (1023#32 ≠ 0xFFFFFFFF#32 ∧ (1023#32).toNat % 4 = 3 ∧ (1023#32).toNat / 4 < 256) ∧
    (1027#32 ≠ 0xFFFFFFFF#32 ∧ (1027#32).toNat % 4 = 3 ∧ 256 ≤ (1027#32).toNat / 4) := by decide

theorem witness_FeedWIsFourFeedB :
    busyState.phase = .running ∧ (countState 1020).phase = .idle ∧ (countState 1020).byteCount.toNat % 4 = 0 ∧
    (countState 1020).byteCount.toNat < 1024 := by decide

/-- Seven bytes leave three pending. -/
theorem witness_FedBytesBecomeLittleEndianSamples :
    State.reset.phase = .idle ∧ State.reset.byteCount = 0#32 ∧ 2 < (7#32).toNat % 4 := by decide

theorem witness_CompletionPublishesTheRun :
    (busyState.phase = .running ∧ busyState.inputs = [] ∧ busyState.byteCount = 0#32) ∧
    ({ countState 4 with phase := .running, inputs := [.engine] } : State).phase = .running ∧
    ({ countState 4 with phase := .running, inputs := [.engine] } : State).inputs = .engine :: [] ∧
    (countState 4).byteCount ≠ 0#32 := by decide

theorem witness_FrameWindowAndBitReversal : 255 < 256 ∧ 127 < 128 := by decide

theorem witness_ButterflyCombinesTheTwoPositions : 127 < 256 ∧ 255 < 256 ∧ 127 ≠ 255 := by decide

theorem witness_EachPassCombinesEveryPairWithItsTwiddle :
    (2 ∈ [2, 4, 8, 16, 32, 64, 128, 256] ∧ 254 % 2 = 0 ∧ 254 < 256 ∧ 0 < 2 / 2) ∧
    256 ∈ [2, 4, 8, 16, 32, 64, 128, 256] ∧ 0 % 256 = 0 ∧ 127 < 256 / 2 := by decide

theorem witness_OrderWithinAPassDoesNotMatter :
    256 ∈ passSizes ∧ (passIndices 256).reverse.Perm (passIndices 256) := ⟨by decide, List.reverse_perm _⟩

/-- A magnitude vector, and a bin of each count. -/
theorem witness_OutputBinByCount :
    (∀ j < 128, isMagnitude (readAt (Vector.replicate 128 0x3F800000#32) j) = true) ∧
    binCount 52 = 0 ∧ binCount 11 = 1 ∧ binCount 127 = 2 := by
  refine ⟨fun j hj => ?_, by decide, by decide, by decide⟩
  simp only [readAt, hj, dif_pos, Vector.getElem_replicate]
  decide

/-- Two states that complete the same non-empty run, one with a trailing byte. -/
theorem witness_RunResultsDependOnlyOnTheFrame :
    let s : State := { countState 4 with phase := .running }
    let t : State := { countState 5 with phase := .running, inputs := [.engine], ie := true }
    nextCompletes s = true ∧ nextCompletes t = true ∧ s.byteCount ≠ 0#32 ∧ t.byteCount ≠ 0#32 ∧
    (∀ i < 256, readAt (frame s.byteCount s.sample) i = readAt (frame t.byteCount t.sample) i) ∧
    (∃ s', step s = .next s') ∧ ∃ t', step t = .next t' := by
  refine ⟨rfl, rfl, by decide, by decide, fun i _ => ?_, ⟨_, rfl⟩, _, rfl⟩
  rfl

theorem witness_TrailingBytesDoNotChangeTheResults :
    let s : State := { countState 4 with phase := .running }
    let t : State := { countState 7 with phase := .running }
    nextCompletes s = true ∧ nextCompletes t = true ∧ s.byteCount.toNat = 4 * 1 ∧ t.byteCount.toNat = 4 * 1 + 3 ∧
    (∀ i < min 1 256, readAt s.sample i = readAt t.sample i) ∧
    (∃ s', step s = .next s') ∧ ∃ t', step t = .next t' :=
  ⟨rfl, rfl, rfl, rfl, fun _ _ => rfl, ⟨_, rfl⟩, _, rfl⟩

theorem witness_ZeroFrameGivesZeroResults :
    (∀ i < 256, readAt (Vector.replicate 256 0x00000000#32) i = 0x00000000#32) ∧
    ∀ i < 256, isZero (readAt (Vector.replicate 256 0x80000000#32) i) = true := by
  refine ⟨fun i hi => ?_, fun i hi => ?_⟩ <;> simp only [readAt, hi, dif_pos, Vector.getElem_replicate]
  decide

/-- Two frames that differ only in a finite first sample. -/
theorem witness_FiniteFirstSampleDoesNotShow :
    let x : Vector Word 256 := Vector.replicate 256 0x3F800000#32
    let y := writeAt x 0 0x80000000#32
    isFinite (readAt x 0) = true ∧ isFinite (readAt y 0) = true ∧
    ∀ i < 256, i ≠ 0 → readAt x i = readAt y i := by
  refine ⟨by decide +kernel, by decide +kernel, fun i hi h0 => ?_⟩
  simp [readAt, writeAt, hi, Ne.symm h0]

theorem witness_NonFiniteFirstSampleFillsReWithNan :
    isFinite (readAt (Vector.replicate 256 0x7F800000#32) 0) = false := by decide

theorem witness_HostAccessesCannotTouchARun :
    busyState.phase = .running ∧
    ∀ e ∈ [Event.access (memWrite 0x0010#13 2#32), .access (memRead 0x000C#13)], isAccess e = true := by decide

theorem witness_EveryRunCompletes :
    busyState.phase = .running ∧ ∀ e ∈ [Event.access (memRead 0x000C#13)], isAccess e = true := by decide

theorem witness_FirstErrorStaysUntilCleared :
    ∃ s t : State, s.err = true ∧ step s = .next t ∧ t.err = false :=
  ⟨{ State.reset with err := true, ecode := 1#4, inputs := [.access (memWrite 0x000C#13 4#32)] }, _, rfl, rfl, rfl⟩

theorem witness_IrqChangesOnlyByItsCauses :
    (∃ s t : State, step s = .next t ∧ s.irq = true ∧ t.irq = false) ∧
    ∃ s t : State, step s = .next t ∧ s.irq = false ∧ t.irq = true :=
  ⟨⟨{ State.reset with ie := true, done := true, inputs := [.access (memWrite 0x0010#13 2#32)] }, _, rfl, rfl, rfl⟩,
    { State.reset with ie := true, phase := .running }, _, rfl, rfl, rfl⟩

/-- A state and its next state, not by reset, of which `p` holds. -/
def HasStep (p : State → State → Bool) : Prop :=
  ∃ s t : State, step s = .next t ∧ nextIsReset s = false ∧ p s t = true

/-- A step for each clause; an access is placed in `inputs`. -/
theorem witness_OnlyNamedOperationsWriteEachRegister :
    HasStep (fun s t => s.ie != t.ie && s.eie != t.eie) ∧
    HasStep (fun s t => s.phase == .idle && t.phase == .running && s.done && !t.done) ∧
    HasStep (fun s t => s.phase == .running && t.phase == .idle && !s.done && t.done) ∧
    HasStep (fun s t => s.done && !t.done && s.err && !t.err && s.ecode != t.ecode) ∧
    HasStep (fun s t => !s.err && t.err && s.phase == .running) ∧
    HasStep (fun s t => !s.err && t.err && s.phase == .idle) ∧
    HasStep (fun s t => s.opa != t.opa) ∧ HasStep (fun s t => s.opb != t.opb) ∧
    HasStep (fun s t => s.opres != t.opres && !s.fpflags.getLsbD 3 && t.fpflags.getLsbD 3) ∧
    HasStep (fun s t => s.fpflags.getLsbD 4 && !t.fpflags.getLsbD 4) ∧
    HasStep (fun s t => s.byteCount != t.byteCount && readAt s.sample 0 != readAt t.sample 0) ∧
    HasStep (fun s t => s.outLen != t.outLen) ∧ HasStep (fun s t => s.rdata != t.rdata) :=
  ⟨⟨{ State.reset with inputs := [.access (memWrite 0x0008#13 3#32)] }, _, rfl, rfl, by decide⟩,
   ⟨{ State.reset with done := true, inputs := [.access (memWrite 0x0010#13 2#32)] }, _, rfl, rfl, by decide⟩,
   ⟨busyState, _, rfl, rfl, by decide⟩,
   ⟨{ State.reset with done := true, err := true, ecode := 5#4, inputs := [.access (memWrite 0x000C#13 6#32)] },
     _, rfl, rfl, by decide⟩,
   ⟨{ busyState with inputs := [.access (memWrite 0x0018#13 6#32)] }, _, rfl, rfl, by decide⟩,
   ⟨{ State.reset with inputs := [.access (memWrite 0x0010#13 4#32)] }, _, rfl, rfl, by decide⟩,
   ⟨{ State.reset with inputs := [.access (memWrite 0x0028#13 7#32)] }, _, rfl, rfl, by decide⟩,
   ⟨{ State.reset with inputs := [.access (memWrite 0x002C#13 7#32)] }, _, rfl, rfl, by decide⟩,
   ⟨{ operandState 0x3F800000#32 0#32 with inputs := [.access (memWrite 0x0010#13 0x303#32)] },
     _, rfl, rfl, by decide⟩,
   ⟨{ State.reset with fpflags := 0x1F#5, inputs := [.access (memWrite 0x0034#13 0x10#32)] }, _, rfl, rfl, by decide⟩,
   ⟨{ State.reset with inputs := [.access (memWrite 0x0014#13 7#32)] }, _, rfl, rfl, by decide +kernel⟩,
   ⟨{ busyState with outLen := 128#32 }, _, rfl, rfl, by decide⟩,
   ⟨{ State.reset with inputs := [.access (memRead 0x0000#13)] }, _, rfl, rfl, by decide⟩⟩

theorem witness_ResetEdgeSetsTheRegisters :
    ({ busyState with inputs := [.rst (some (memRead 0x0000#13))] } : State).inputs =
      .rst (some (.read 0#11)) :: [] ∧
    ({ busyState with inputs := [.rst (some (memWrite 0x0028#13 7#32))] } : State).inputs =
      .rst (some (.write 10#11 7#32)) :: [] := by decide

theorem witness_ResetStateHasTheStatedValues :
    ∀ off ∈ [0x0400, 0x13FC], 0x0400 ≤ 4 * (wordAddr off).toNat ∧ 4 * (wordAddr off).toNat ≤ 0x13FC := by decide

/-- A state with an error recorded and a valid result meets the invariant. -/
theorem witness_EveryStepKeepsTheInvariant :
    ∃ s : State, s.Inv ∧ s.err = true ∧ s.outLen = 128#32 ∧ ∃ t, step s = .next t := by
  refine ⟨{ State.reset with err := true, ecode := 5#4, outLen := 128#32 },
    ⟨by decide, by decide, .inr rfl, by decide, fun _ i hi => ?_, fun _ i hi => ?_⟩, rfl, rfl, _, rfl⟩ <;>
  · simp only [State.reset, readAt, hi, dif_pos, Vector.getElem_replicate]
    decide

/-- Two states with different unspecified contents that a host cannot tell apart. -/
theorem witness_UnspecifiedContentsAreNeverObserved :
    ∃ s t : State, SameObservable s t ∧ s ≠ t ∧ ∃ s', step s = .next s' := by
  refine ⟨State.reset, { State.reset with mag := Vector.replicate 128 1#32 },
    ⟨rfl, rfl, rfl, rfl, rfl, rfl, rfl, rfl, rfl, rfl, rfl, rfl, rfl, rfl, fun _ _ _ => rfl, fun _ _ => rfl,
      fun _ => rfl, fun _ => rfl, fun h => ?_, fun _ => rfl⟩, ?_, _, rfl⟩
  · exact absurd h (by decide)
  · intro h
    have := congrArg (fun u : State => readAt u.mag 0) h
    revert this
    decide

end Sys2Proof.Tests
end

section
/-! PROOFS. The constant tables and `rev8` (R14, R240, R241, R244). HANN and TWS are mirror images of themselves without
their entry 0; the identities of TWC follow from those of TWS by the quarter turn. -/

namespace Sys2Proof.Machine

/-! ## The tables -/

/-- A list that reads the same backwards after its first entry has equal entries at `i` and at `length - i`. -/
theorem getD_mirror {l : List Word} {n i : Nat} (hn : l.length = n) (h : l.tail.reverse = l.tail) (h1 : 1 ≤ i)
    (hi : i < n) : l.getD (n - i) 0#32 = l.getD i 0#32 := by
  have hlen : l.tail.length = n - 1 := by rw [List.length_tail, hn]
  have hmirror : l.tail[n - i - 1]? = l.tail[i - 1]? :=
    calc l.tail[n - i - 1]? = l.tail.reverse[i - 1]? := by
          rw [List.getElem?_reverse (by omega)]
          congr 1
          omega
      _ = l.tail[i - 1]? := by rw [h]
  rw [List.getElem?_tail, List.getElem?_tail, Nat.sub_add_cancel h1, Nat.sub_add_cancel (by omega)] at hmirror
  rw [List.getD_eq_getElem?_getD, hmirror, List.getD_eq_getElem?_getD]

/-- A test that every word of a table passes is passed by the entry at each of its indices. -/
theorem getD_of_all {l : List Word} {p : Word → Bool} {n i : Nat} (hn : l.length = n) (h : l.all p = true)
    (hi : i < n) : p (l.getD i 0#32) = true := by
  subst hn
  rw [List.getD_eq_getElem l 0#32 hi]
  exact List.all_eq_true.mp h _ (List.getElem_mem hi)

theorem hannRomTable_length : hannRomTable.length = 256 := by decide +kernel

theorem twcRomTable_length : twcRomTable.length = 128 := by decide +kernel

theorem twsRomTable_length : twsRomTable.length = 128 := by decide +kernel

theorem hannRomTable_tail_reverse : hannRomTable.tail.reverse = hannRomTable.tail := by decide +kernel

theorem twsRomTable_tail_reverse : twsRomTable.tail.reverse = twsRomTable.tail := by decide +kernel

/-- `HANN[256-i] = HANN[i]` (R240). -/
theorem hann_mirror {i : Nat} (h1 : 1 ≤ i) (hi : i < 256) : hann (256 - i) = hann i :=
  getD_mirror hannRomTable_length hannRomTable_tail_reverse h1 hi

/-- `sin(pi - x) = sin x` in the table (R241). -/
theorem tws_mirror {j : Nat} (h1 : 1 ≤ j) (hj : j < 128) : tws (128 - j) = tws j :=
  getD_mirror twsRomTable_length twsRomTable_tail_reverse h1 hj

/-- `cos(pi/2 + x) = -sin x` in the table (R241); `j = 0` is left out, where TWC holds `+0`. -/
theorem twc_quarterTurn : ∀ j < 64, 1 ≤ j → twc (64 + j) = tws j ^^^ 0x80000000#32 := by decide +kernel

/-- `sin(pi/2 + x) = cos x` in the table (R241). -/
theorem tws_quarterTurn : ∀ j < 64, tws (64 + j) = twc j := by decide +kernel

/-- `cos(pi - x) = -cos x` below the quarter: `pi - x` is a quarter turn from `pi/2 - x`, and the sine of `pi/2 - x`
is that of its mirror image `pi/2 + x`. -/
theorem twc_mirror_of_lt {j : Nat} (h1 : 1 ≤ j) (hj : j < 64) : twc (128 - j) = twc j ^^^ 0x80000000#32 :=
  calc twc (128 - j) = twc (64 + (64 - j)) := by congr 1; omega
    _ = tws (64 - j) ^^^ 0x80000000#32 := twc_quarterTurn _ (by omega) (by omega)
    _ = tws (128 - (64 + j)) ^^^ 0x80000000#32 := by congr 2; omega
    _ = tws (64 + j) ^^^ 0x80000000#32 := by rw [tws_mirror (by omega) (by omega)]
    _ = twc j ^^^ 0x80000000#32 := by rw [tws_quarterTurn j hj]

/-- `cos(pi - x) = -cos x` in the table (R241); `j = 64` is left out, where TWC holds `+0`. -/
theorem twc_mirror {j : Nat} (h1 : 1 ≤ j) (hj : j < 128) (hne : j ≠ 64) :
    twc (128 - j) = twc j ^^^ 0x80000000#32 := by
  obtain hlt | hgt := Nat.lt_or_gt_of_ne hne
  · exact twc_mirror_of_lt h1 hlt
  · have hback : twc j = twc (128 - j) ^^^ 0x80000000#32 := by
      have := twc_mirror_of_lt (j := 128 - j) (by omega) (by omega)
      rwa [show 128 - (128 - j) = j by omega] at this
    rw [hback, BitVec.xor_assoc, BitVec.xor_self, BitVec.xor_zero]

/-- Every HANN entry is a nonnegative word of at most 1.0, so none is NaN or infinite. -/
theorem hann_le_one {i : Nat} (hi : i < 256) : hann i ≤ 0x3F800000#32 :=
  of_decide_eq_true (getD_of_all (p := (· ≤ 0x3F800000#32)) hannRomTable_length (by decide +kernel) hi)

/-- Every TWS entry is a nonnegative word of at most 1.0, so none is NaN or infinite. -/
theorem tws_le_one {m : Nat} (hm : m < 128) : tws m ≤ 0x3F800000#32 :=
  of_decide_eq_true (getD_of_all (p := (· ≤ 0x3F800000#32)) twsRomTable_length (by decide +kernel) hm)

theorem isFinite_twc {m : Nat} (hm : m < 128) : isFinite (twc m) = true :=
  getD_of_all twcRomTable_length (by decide +kernel) hm

/-! ## Bit reversal -/

/-- Appending one bit shifts the others up by one place. -/
theorem getLsbD_append_bit {n : Nat} (x : BitVec n) (b : Bool) (k : Nat) :
    (x ++ bit b).getLsbD k = if k = 0 then b else x.getLsbD (k - 1) := by
  rw [BitVec.getLsbD_append, bit]
  cases k <;> simp

theorem getLsbD_rev8 (i : Byte) {k : Nat} (hk : k < 8) : (rev8 i).getLsbD k = i.getLsbD (7 - k) := by
  unfold rev8
  iterate 7 rw [getLsbD_append_bit]
  interval_cases k <;> simp [bit]

theorem rev8_rev8 (i : Byte) : rev8 (rev8 i) = i := by
  refine BitVec.eq_of_getLsbD_eq fun k hk => ?_
  rw [getLsbD_rev8 _ hk, getLsbD_rev8 _ (by omega), Nat.sub_sub_self (by omega)]

theorem rev8_fixedPoints_length :
    ((List.range 256).filter fun n => rev8 (BitVec.ofNat 8 n) = BitVec.ofNat 8 n).length = 16 := by
  decide +kernel

/-- Settles O41: the exact entries and the bounds are read off the tables, the mirror identities come from the
tables' palindromes and the quarter turn, and `rev8`'s properties from what it does to each bit. -/
theorem constantTablesHaveTheirSymmetries : Obligations.ConstantTablesHaveTheirSymmetries :=
  ⟨rfl, rfl, rfl, rfl, rfl, rfl, rfl, rfl,
    fun _ hi h1 => hann_mirror h1 (by omega),
    fun j hj h1 => ⟨twc_quarterTurn j hj h1, tws_quarterTurn j hj⟩,
    fun _ hj h1 hne => ⟨tws_mirror h1 hj, twc_mirror h1 hj hne⟩,
    fun _ hi => hann_le_one hi,
    fun _ hm => ⟨tws_le_one hm, isFinite_twc hm⟩,
    fun i _ hk => getLsbD_rev8 i hk,
    rev8_rev8,
    rev8_fixedPoints_length⟩

end Sys2Proof.Machine
end

section
/-! PROOFS. What one operation and one step do, row by row, for the statements about the state. The ten CMD rows are one
case, that of the command they name. -/

namespace Sys2Proof.Machine

/-! ## The rows of `exec` -/

theorem exec_wrCtrl (v : Word) (s : State) :
    exec (.wrCtrl v) s = .next { s with ie := v.getLsbD 0, eie := v.getLsbD 1 } := rfl
theorem exec_wrStatus (v : Word) (s : State) :
    exec (.wrStatus v) s = .next { s with done := s.done && !v.getLsbD 1
                                          err := s.err && !v.getLsbD 2
                                          ecode := if v.getLsbD 2 then 0#4 else s.ecode } := by
  simp only [exec, execWrStatus]
  cases v.getLsbD 1 <;> cases v.getLsbD 2 <;> simp [clearError]
theorem exec_wrOpa (v : Word) (s : State) : exec (.wrOpa v) s = .next { s with opa := v } := rfl
theorem exec_wrOpb (v : Word) (s : State) : exec (.wrOpb v) s = .next { s with opb := v } := rfl
theorem exec_wrFpflags (v : Word) (s : State) :
    exec (.wrFpflags v) s = .next { s with fpflags := clearFlags s.fpflags v } := rfl
theorem exec_wrIgnored (a : WordAddr) (v : Word) (s : State) : exec (.wrIgnored a v) s = .next s := rfl

/-- Case analysis on an operation with the ten CMD rows as one case, that of their command. -/
theorem rowCases {motive : Instr → Prop} (command : ∀ c, motive (commandInstr c))
    (wrCtrl : ∀ v, motive (.wrCtrl v)) (wrStatus : ∀ v, motive (.wrStatus v)) (wrCmd : ∀ v, motive (.wrCmd v))
    (feedW : ∀ v, motive (.feedW v)) (feedB : ∀ v, motive (.feedB v)) (wrOpa : ∀ v, motive (.wrOpa v))
    (wrOpb : ∀ v, motive (.wrOpb v)) (wrFpflags : ∀ v, motive (.wrFpflags v))
    (wrIgnored : ∀ a v, motive (.wrIgnored a v)) (rd : ∀ a, motive (.rd a)) (i : Instr) : motive i := by
  cases i with
  | nop => exact command .nop
  | clear => exact command .clear
  | start => exact command .start
  | fpopFadd => exact command (.fpop .fadd)
  | fpopFsub => exact command (.fpop .fsub)
  | fpopFmul => exact command (.fpop .fmul)
  | fpopFdiv => exact command (.fpop .fdiv)
  | fpopFsqrt => exact command (.fpop .fsqrt)
  | fpopFmag => exact command (.fpop .fmag)
  | fpopFclamp => exact command (.fpop .fclamp)
  | wrCtrl v => exact wrCtrl v
  | wrStatus v => exact wrStatus v
  | wrCmd v => exact wrCmd v
  | feedW v => exact feedW v
  | feedB v => exact feedB v
  | wrOpa v => exact wrOpa v
  | wrOpb v => exact wrOpb v
  | wrFpflags v => exact wrFpflags v
  | wrIgnored a v => exact wrIgnored a v
  | rd a => exact rd a

/-! ## Runs -/

/-- A run goes on from the state that its first step answers. -/
theorem run_succ_of_step {s t : State} (h : step s = .next t) (k : Nat) :
    Host.Core.run Sys2Proof.core (k + 1) s = Host.Core.run Sys2Proof.core k t := by
  have hcore : Sys2Proof.core.step s = .next t := h
  simp only [Host.Core.run, hcore]

/-! ## The byte stream -/

/-- BYTE_COUNT counts by one below saturation. -/
theorem byteCount_succ {c : Word} (h : c ≠ 0xFFFFFFFF#32) : (c + 1#32).toNat = c.toNat + 1 := by
  bv_omega

/-- Fed bytes change BYTE_COUNT, ASM and SAMPLE at most. -/
theorem feedBytes_frame (bs : List Byte) (s : State) :
    feedBytes bs s = { s with byteCount := (feedBytes bs s).byteCount
                              asm := (feedBytes bs s).asm
                              sample := (feedBytes bs s).sample } :=
  calc feedBytes bs s = { feedBytes bs s with inputs := (feedBytes bs s).inputs } := rfl
    _ = _ := by simp

end Sys2Proof.Machine
end

section
/-! PROOFS. The invariant (R210, R216, R262, R300): every operation keeps it, and a completion, which is the one event
that publishes words, publishes magnitudes and clamped bins. -/

namespace Sys2Proof.Machine

/-! ## Nonnegative words -/

/-- A positive word whose exponent field is below 255 is below `+inf`. -/
theorem packWord_false_le {e : Nat} (he : e < 255) (f : Nat) : packWord false e f ≤ 0x7F800000#32 := by
  have hf : f % 2 ^ 23 < 2 ^ 23 := Nat.mod_lt _ (by norm_num)
  have htrunc : packWord false e f = packWord false e (f % 2 ^ 23) := by
    unfold packWord
    congr 1
    exact BitVec.eq_of_toNat_eq (by simp)
  rw [htrunc, BitVec.le_def, packWord_toNat false (by omega) hf]
  simp
  omega

theorem isMagnitude_of_le {w : Word} (h : w ≤ 0x7F800000#32) : isMagnitude w = true := by
  simp [isMagnitude, h]

theorem isMagnitude_qNaN : isMagnitude qNaN = true := by decide

theorem isMagnitude_zero : isMagnitude (zeroWord false) = true := by decide

/-- A rounded nonnegative value overflows to `+inf` at most (R172). -/
theorem isMagnitude_finishRound (N : Nat) (q : Int) (inexact tiny : Bool) :
    isMagnitude (finishRound false N q inexact tiny).w = true := by
  unfold finishRound
  generalize (if N = 2 ^ 24 then q + 1 else q) = q', (if N = 2 ^ 24 then 2 ^ 23 else N) = N'
  dsimp only
  split
  · decide
  · split
    · exact isMagnitude_of_le (packWord_false_le (by norm_num) _)
    · exact isMagnitude_of_le (packWord_false_le (by omega) _)

theorem isMagnitude_roundFp (m : Magnitude) : isMagnitude (roundFp false m).w = true := by
  unfold roundFp
  split
  · exact isMagnitude_zero
  · exact isMagnitude_finishRound _ _ _ _

/-- A magnitude word that is no NaN has sign bit 0. -/
theorem fpSign_of_isMagnitude {w : Word} (h : isMagnitude w = true) : fpSign w = false := by
  simp only [isMagnitude, Bool.or_eq_true, decide_eq_true_eq, beq_iff_eq] at h
  obtain h | rfl := h
  · rw [BitVec.le_def] at h
    simp [fpSign, BitVec.getLsbD, Nat.testBit_eq_decide_div_mod_eq] at h ⊢
    omega
  · decide

/-! ## The magnitude calculator (R181) -/

/-- A square is nonnegative or NaN. -/
theorem isMagnitude_fmul32_self (a : Word) : isMagnitude (fmul32 a a).w = true := by
  unfold fmul32
  simp only [Bool.xor_self, Bool.or_self]
  split_ifs
  · exact isMagnitude_qNaN
  · exact isMagnitude_qNaN
  · decide
  · exact isMagnitude_roundFp _

theorem alignedInt_nonneg {w : Word} (h : fpSign w = false) (x : Int) : 0 ≤ alignedInt w x := by
  simp only [alignedInt, h, Bool.false_eq_true, if_false]
  positivity

/-- A sum of magnitudes is a magnitude: its exact value is nonnegative, and an exact zero is `+0`. -/
theorem isMagnitude_fadd32 {a b : Word} (ha : isMagnitude a = true) (hb : isMagnitude b = true) :
    isMagnitude (fadd32 a b).w = true := by
  have hsum : 0 ≤ exactSum a b :=
    add_nonneg (alignedInt_nonneg (fpSign_of_isMagnitude ha) _) (alignedInt_nonneg (fpSign_of_isMagnitude hb) _)
  unfold fadd32
  simp only [fpSign_of_isMagnitude ha, Bool.and_false, Bool.false_and, not_lt.mpr hsum, decide_false]
  split_ifs
  · exact isMagnitude_qNaN
  · exact isMagnitude_qNaN
  · exact ha
  · exact hb
  · exact isMagnitude_zero
  · exact isMagnitude_roundFp _

/-- The root of a magnitude is a magnitude. -/
theorem isMagnitude_fsqrt32 {a : Word} (ha : isMagnitude a = true) : isMagnitude (fsqrt32 a).w = true := by
  unfold fsqrt32
  split_ifs
  · exact isMagnitude_qNaN
  · exact ha
  · exact isMagnitude_qNaN
  · exact ha
  · exact isMagnitude_roundFp _

/-- `fmag32` answers a magnitude, whatever its operands (R210). -/
theorem isMagnitude_fmag32 (a b : Word) : isMagnitude (fmag32 a b).w = true :=
  isMagnitude_fsqrt32 (isMagnitude_fadd32 (isMagnitude_fmul32_self a) (isMagnitude_fmul32_self b))

theorem isMagnitude_readAt_magnitudes (z : Spectrum) {i : Nat} (hi : i < 128) :
    isMagnitude (readAt (magnitudes z) i) = true := by
  rw [magnitudes, readAt_ofFn _ hi]
  exact isMagnitude_fmag32 _ _

/-! ## The bins (R182, R214) -/

/-- `fclamp01` answers a word in [0, 1]. -/
theorem inUnitRange_fclamp01 (a : Word) : inUnitRange (fclamp01 a).w = true := by
  unfold fclamp01
  split_ifs with hnan hneg hone
  · decide
  · decide
  · decide
  · rw [ge_iff_le, BitVec.not_le] at hone
    exact decide_eq_true (BitVec.le_of_lt hone)

theorem inUnitRange_readAt_bins (mag : Vector Word 128) {i : Nat} (hi : i < 128) :
    inUnitRange (readAt (bins mag) i) = true := by
  rw [bins, readAt_ofFn _ hi]
  unfold bin
  dsimp only
  split
  · decide
  · exact inUnitRange_fclamp01 _

/-! ## What keeps the invariant -/

variable {s : State}

/-- The errors' codes are 1 to 5 (R262). -/
theorem errorCode_bounds (c : ErrorCode) : errorCode c ≠ 0#4 ∧ (errorCode c).toNat ≤ 5 := by
  cases c <;> decide

theorem State.Inv.withInputs (h : s.Inv) (es : List Event) : State.Inv { s with inputs := es } := { h with }

theorem State.Inv.raiseError (h : s.Inv) (c : ErrorCode) : (raiseError c s).Inv :=
  { h with
    ecode_iff := by
      have hold := h.ecode_iff
      cases herr : s.err <;> simp_all [errorCode_bounds]
    ecode_le := by
      rw [raiseError_ecode]
      split
      · exact h.ecode_le
      · exact (errorCode_bounds c).2 }

theorem State.Inv.whenIdle (h : s.Inv) (c : ErrorCode) {f : State → State} (hf : (f s).Inv) :
    (whenIdle c f s).Inv := by
  unfold Machine.whenIdle
  split
  · exact h.raiseError c
  · exact hf

theorem State.Inv.feedBytes (h : s.Inv) (bs : List Byte) : (feedBytes bs s).Inv := by
  rw [feedBytes_frame]
  exact { h with }

theorem State.Inv.commandEffect (h : s.Inv) (c : Command) : (commandEffect c s).Inv := by
  cases c with
  | nop => exact h
  | clear => exact { h with }
  | start => exact { h with done_idle := fun _ => rfl }
  | fpop f => exact { h with }

theorem State.Inv.writeCmd (h : s.Inv) (v : Word) : (writeCmd v s).Inv := by
  refine h.whenIdle _ ?_
  split
  · exact h.raiseError _
  · exact h.commandEffect _

/-- A completion leaves IDLE, and what it publishes is in range. -/
theorem State.Inv.complete (h : s.Inv) : (complete s).Inv := by
  unfold Machine.complete
  split
  · exact { h with
      outLen_legal := .inl rfl
      done_idle := nofun
      out_range := by simp
      mag_range := by simp }
  · exact { h with
      outLen_legal := .inr rfl
      done_idle := nofun
      out_range := fun _ _ hi => inUnitRange_readAt_bins _ hi
      mag_range := fun _ _ hi => isMagnitude_readAt_magnitudes _ hi }

theorem State.Inv.engineTurn (h : s.Inv) : (engineTurn s).Inv := by
  unfold Machine.engineTurn
  split
  · exact h.complete
  · exact h

theorem inv_resetRegisters (s : State) : (resetRegisters s).Inv where
  ecode_iff := by simp
  ecode_le := by simp
  outLen_legal := .inl rfl
  done_idle := fun _ => rfl
  out_range := by simp
  mag_range := by simp

theorem inv_resetEdge (p : Option BusAccess) (s : State) : (resetEdge p s).Inv := by
  obtain h | ⟨-, h⟩ := resetEdge_cases p s
  · rw [h]
    exact inv_resetRegisters s
  · rw [h]
    exact { inv_resetRegisters s with }

theorem State.Inv.exec (h : s.Inv) {i : Instr} {t : State} (ht : exec i s = .next t) : t.Inv := by
  induction i using rowCases with
  | command c =>
    rw [exec_commandInstr] at ht
    cases ht
    exact h.whenIdle _ (h.commandEffect c)
  | wrCtrl v => cases ht; exact { h with }
  | wrStatus v =>
    rw [exec_wrStatus] at ht
    cases ht
    exact { h with
      ecode_iff := by
        have hold := h.ecode_iff
        cases v.getLsbD 2 <;> simp_all
      ecode_le := by
        dsimp only
        split
        · decide
        · exact h.ecode_le
      done_idle := fun hrun => by simp [h.done_idle hrun] }
  | wrCmd v => cases ht; exact h.writeCmd v
  | feedW v => cases ht; exact h.whenIdle _ (h.feedBytes _)
  | feedB v => cases ht; exact h.whenIdle _ (h.feedBytes [feedByteOf v])
  | wrOpa v => cases ht; exact { h with }
  | wrOpb v => cases ht; exact { h with }
  | wrFpflags v => cases ht; exact { h with }
  | wrIgnored a v => cases ht; exact h
  | rd a => cases ht; exact { h with }

/-- Settles O56: accesses change no published word and keep the error and run rules, a completion publishes words in
range, and a reset edge sets registers that meet the invariant. -/
theorem everyStepKeepsTheInvariant : Obligations.EveryStepKeepsTheInvariant := by
  intro s t h ht
  obtain ⟨-, rfl⟩ | ⟨a, rest, -, ht⟩ | ⟨rest, -, rfl⟩ | ⟨p, rest, -, rfl⟩ := step_cases ht
  · exact h.engineTurn
  · exact (h.withInputs rest).exec ht
  · exact (h.withInputs rest).engineTurn
  · exact inv_resetEdge p _

end Sys2Proof.Machine
end

section
/-! PROOFS. Noninterference (R40, R46, R50, R292): every operation takes states that agree on all but unspecified
contents to such states, so no read and no run shows those contents. -/

namespace Sys2Proof.Machine

variable {s t : State}

/-! ## What a host can read -/

theorem SameObservable.busy (h : SameObservable s t) : s.busy = t.busy := by
  simp only [State.busy, h.phase]

theorem SameObservable.valid (h : SameObservable s t) : s.valid = t.valid := by
  simp only [State.valid, h.outLen]

theorem SameObservable.readRegister (h : SameObservable s t) (off : Nat) : s.readRegister off = t.readRegister off := by
  simp only [State.readRegister, State.ctrlWord, State.statusWord, State.irq, State.sampleCount, State.fpflagsWord,
    h.busy, h.ie, h.eie, h.done, h.err, h.ecode, h.byteCount, h.outLen, h.opa, h.opb, h.opres, h.fpflags]

theorem SameObservable.sampleWindow (h : SameObservable s t) (i : Nat) : s.sampleWindow i = t.sampleWindow i := by
  simp only [State.sampleWindow, h.busy, ← h.byteCount]
  split
  · rfl
  · split
    next hi => exact h.sample i hi
    next => rfl

/-- A result window shows its array only while the result is valid, and then the arrays agree. -/
theorem SameObservable.resultWindow (h : SameObservable s t) {n : Nat} {v w : Vector Word n}
    (hv : s.outLen = 128#32 → v = w) (i : Nat) : s.resultWindow v i = t.resultWindow w i := by
  simp only [State.resultWindow, ← h.busy, ← h.valid]
  split
  · rfl
  · next hshown =>
    have hlen : s.outLen = 128#32 := by simp_all [State.valid]
    rw [hv hlen]

theorem SameObservable.readWord (h : SameObservable s t) (a : WordAddr) : s.readWord a = t.readWord a := by
  simp only [State.readWord, State.readOffset, h.readRegister, h.sampleWindow, h.resultWindow h.re,
    h.resultWindow h.im, h.resultWindow h.mag, h.resultWindow h.out]

/-! ## What keeps the states indistinguishable -/

theorem SameObservable.withInputs (h : SameObservable s t) (es : List Event) :
    SameObservable { s with inputs := es } { t with inputs := es } := { h with inputs := rfl }

theorem SameObservable.raiseError (h : SameObservable s t) (c : ErrorCode) :
    SameObservable (raiseError c s) (raiseError c t) :=
  { h with err := rfl, ecode := by simp only [raiseError_ecode, h.err, h.ecode] }

theorem SameObservable.whenIdle (h : SameObservable s t) (c : ErrorCode) {f : State → State}
    (hf : SameObservable (f s) (f t)) : SameObservable (whenIdle c f s) (whenIdle c f t) := by
  unfold Machine.whenIdle
  rw [← h.busy]
  split
  · exact h.raiseError c
  · exact hf

/-- After CLEAR no sample and no pending byte is left to agree on. -/
theorem SameObservable.clearStream (h : SameObservable s t) : SameObservable (clearStream s) (clearStream t) :=
  { h with byteCount := rfl, asm := fun _ _ _ => rfl, sample := by simp [frameLength] }

theorem SameObservable.fpop (h : SameObservable s t) (f : FpSel) : SameObservable (fpop f s) (fpop f t) :=
  { h with
    opres := by simp only [fpop_opres, h.opa, h.opb]
    fpflags := by simp only [fpop_fpflags, h.opa, h.opb, h.fpflags] }

/-- A byte into ASM is one more pending byte, and completes no sample. -/
theorem SameObservable.feedByte_partial (h : SameObservable s t) (b : Byte) (hs : s.byteCount ≠ 0xFFFFFFFF#32)
    (hp : s.byteCount.toNat % 4 < 3) : SameObservable (feedByte b s) (feedByte b t) := by
  rw [Machine.feedByte_partial b hs hp, Machine.feedByte_partial b (h.byteCount ▸ hs) (h.byteCount ▸ hp), ← h.byteCount]
  have hnext := byteCount_succ hs
  refine { h with byteCount := rfl, asm := fun j hj hpend => ?_, sample := fun i hi => h.sample i ?_ }
  · simp only [hnext] at hpend
    simp only [Vector.getElem_setIfInBounds]
    split
    · rfl
    · exact h.asm j hj (by omega)
  · simp only [frameLength, hnext, Config.fftSize] at hi ⊢
    omega

/-- The fourth byte of a sample stores a word made of bytes on which the states agree. -/
theorem SameObservable.feedByte_store (h : SameObservable s t) (b : Byte) (hs : s.byteCount ≠ 0xFFFFFFFF#32)
    (hp : s.byteCount.toNat % 4 = 3) (hn : s.byteCount.toNat / 4 < 256) :
    SameObservable (feedByte b s) (feedByte b t) := by
  rw [Machine.feedByte_store b hs hp hn,
    Machine.feedByte_store b (h.byteCount ▸ hs) (h.byteCount ▸ hp) (h.byteCount ▸ hn), ← h.byteCount]
  have hnext := byteCount_succ hs
  refine { h with byteCount := rfl, asm := fun j hj hpend => ?_, sample := fun i hi => ?_ }
  · simp only [hnext] at hpend
    omega
  · rw [h.asm 0 (by omega) (by omega), h.asm 1 (by omega) (by omega), h.asm 2 (by omega) (by omega), readAt_writeAt,
      readAt_writeAt]
    split
    · rfl
    · simp only [frameLength, hnext] at hi
      exact h.sample i (by simp only [frameLength]; omega)

/-- From sample 256 on a fourth byte is counted only. -/
theorem SameObservable.feedByte_beyond (h : SameObservable s t) (b : Byte) (hs : s.byteCount ≠ 0xFFFFFFFF#32)
    (hp : s.byteCount.toNat % 4 = 3) (hn : 256 ≤ s.byteCount.toNat / 4) :
    SameObservable (feedByte b s) (feedByte b t) := by
  rw [Machine.feedByte_beyond b hs hp hn,
    Machine.feedByte_beyond b (h.byteCount ▸ hs) (h.byteCount ▸ hp) (h.byteCount ▸ hn), ← h.byteCount]
  have hnext := byteCount_succ hs
  refine { h with byteCount := rfl, asm := fun j hj hpend => ?_, sample := fun i hi => h.sample i ?_ }
  · simp only [hnext] at hpend
    omega
  · simp only [frameLength, hnext, Config.fftSize] at hi ⊢
    omega

theorem SameObservable.feedByte (h : SameObservable s t) (b : Byte) :
    SameObservable (feedByte b s) (feedByte b t) := by
  by_cases hs : s.byteCount = 0xFFFFFFFF#32
  · rwa [feedByte_saturated b hs, feedByte_saturated b (h.byteCount ▸ hs)]
  · by_cases hp : s.byteCount.toNat % 4 < 3
    · exact h.feedByte_partial b hs hp
    · by_cases hn : s.byteCount.toNat / 4 < 256
      · exact h.feedByte_store b hs (by omega) hn
      · exact h.feedByte_beyond b hs (by omega) (by omega)

theorem SameObservable.feedBytes (h : SameObservable s t) (bs : List Byte) :
    SameObservable (feedBytes bs s) (feedBytes bs t) := by
  induction bs generalizing s t with
  | nil => exact h
  | cons b bs ih => exact ih (h.feedByte b)

theorem SameObservable.commandEffect (h : SameObservable s t) (c : Command) :
    SameObservable (commandEffect c s) (commandEffect c t) := by
  cases c with
  | nop => exact h
  | clear => exact h.clearStream
  | start => exact { h with phase := rfl, done := rfl }
  | fpop f => exact h.fpop f

theorem SameObservable.writeCmd (h : SameObservable s t) (v : Word) :
    SameObservable (writeCmd v s) (writeCmd v t) := by
  refine h.whenIdle _ ?_
  split
  · exact h.raiseError _
  · exact h.commandEffect _

theorem SameObservable.hostRead (h : SameObservable s t) (a : WordAddr) :
    SameObservable (hostRead a s) (hostRead a t) := { h with rdata := h.readWord a }

theorem SameObservable.exec (h : SameObservable s t) {i : Instr} {s' : State} (hs : exec i s = .next s') :
    ∃ t', exec i t = .next t' ∧ SameObservable s' t' := by
  induction i using rowCases with
  | command c =>
    rw [exec_commandInstr] at hs
    cases hs
    exact ⟨_, exec_commandInstr c t, h.whenIdle _ (h.commandEffect c)⟩
  | wrCtrl v => cases hs; exact ⟨_, rfl, { h with ie := rfl, eie := rfl }⟩
  | wrStatus v =>
    rw [exec_wrStatus] at hs
    cases hs
    exact ⟨_, exec_wrStatus v t,
      { h with done := by rw [h.done], err := by rw [h.err], ecode := by rw [h.ecode] }⟩
  | wrCmd v => cases hs; exact ⟨_, rfl, h.writeCmd v⟩
  | feedW v => cases hs; exact ⟨_, rfl, h.whenIdle _ (h.feedBytes _)⟩
  | feedB v => cases hs; exact ⟨_, rfl, h.whenIdle _ (h.feedByte _)⟩
  | wrOpa v => cases hs; exact ⟨_, rfl, { h with opa := rfl }⟩
  | wrOpb v => cases hs; exact ⟨_, rfl, { h with opb := rfl }⟩
  | wrFpflags v => cases hs; exact ⟨_, rfl, { h with fpflags := by rw [h.fpflags] }⟩
  | wrIgnored a v => cases hs; exact ⟨_, rfl, h⟩
  | rd a => cases hs; exact ⟨_, rfl, h.hostRead a⟩

/-! ## The run and reset -/

/-- The frame is made of the fed samples only (R201). -/
theorem SameObservable.frame (h : SameObservable s t) : frame s.byteCount s.sample = frame t.byteCount t.sample := by
  rw [← h.byteCount]
  refine eq_of_readAt fun i hi => ?_
  simp only [Machine.frame, readAt_ofFn _ hi]
  split
  next hlt => exact h.sample i hlt
  next => rfl

/-- A completion sets OUT_LEN, and with a valid result the arrays are the run's own. -/
theorem SameObservable.complete (h : SameObservable s t) : SameObservable (complete s) (complete t) := by
  unfold Machine.complete
  rw [← h.frame, ← h.byteCount]
  split
  · exact { h with
      outLen := rfl, phase := rfl, done := rfl
      re := by simp, im := by simp, mag := by simp, out := by simp }
  · exact { h with
      outLen := rfl, phase := rfl, done := rfl
      re := fun _ => rfl, im := fun _ => rfl, mag := fun _ => rfl, out := fun _ => rfl }

theorem SameObservable.engineTurn (h : SameObservable s t) : SameObservable (engineTurn s) (engineTurn t) := by
  unfold Machine.engineTurn
  rw [← h.busy]
  split
  · exact h.complete
  · exact h

/-- After a reset edge no array is observable: `BYTE_COUNT` and `OUT_LEN` are 0. -/
theorem SameObservable.resetRegisters (h : SameObservable s t) :
    SameObservable (resetRegisters s) (resetRegisters t) := by
  constructor <;> simp [h.rdata, h.inputs, frameLength]

theorem SameObservable.resetEdge (h : SameObservable s t) (p : Option BusAccess) :
    SameObservable (resetEdge p s) (resetEdge p t) := by
  unfold Machine.resetEdge
  split
  · exact { h.resetRegisters with rdata := rfl }
  · exact h.resetRegisters
  · exact h.resetRegisters

/-- Settles O57: each event takes indistinguishable states to indistinguishable states, the word read included. -/
theorem unspecifiedContentsAreNeverObserved : Obligations.UnspecifiedContentsAreNeverObserved := by
  intro s t s' h hs
  unfold step
  rw [← h.inputs]
  obtain ⟨hi, rfl⟩ | ⟨a, rest, hi, hs⟩ | ⟨rest, hi, rfl⟩ | ⟨p, rest, hi, rfl⟩ := step_cases hs <;> rw [hi]
  · exact ⟨_, rfl, h.engineTurn⟩
  · exact (h.withInputs rest).exec hs
  · exact ⟨_, rfl, (h.withInputs rest).engineTurn⟩
  · exact ⟨_, rfl, (h.withInputs rest).resetEdge p⟩

end Sys2Proof.Machine
end

section
/-! PROOFS. The byte stream (R31, R46, R75, R141): FEED_B writes run `feedBytes`, and `feedBytes` holds the stream in
SAMPLE and ASM, which is kept byte by byte. -/

namespace Sys2Proof.Machine

/-! ## A run of FEED_B writes -/

theorem feedByteOf_setWidth (b : Byte) : feedByteOf (b.setWidth 32) = b := by
  refine BitVec.eq_of_toNat_eq ?_
  have := b.isLt
  simp only [feedByteOf, BitVec.extractLsb_toNat, BitVec.toNat_setWidth, Nat.shiftRight_zero]
  omega

theorem feedByte_withInputs (b : Byte) (s : State) (es : List Event) :
    feedByte b { s with inputs := es } = { feedByte b s with inputs := es } := by
  unfold feedByte
  dsimp only
  split_ifs <;> rfl

theorem step_feedEvent {s : State} (hs : s.phase = .idle) (b : Byte) (rest : List Event) :
    step { s with inputs := feedEvent b :: rest } = .next { feedByte b s with inputs := rest } := by
  have hidle : State.busy { s with inputs := rest } = false := (not_busy_iff _).mpr hs
  calc step { s with inputs := feedEvent b :: rest }
      = exec (.feedB (b.setWidth 32)) { s with inputs := rest } := rfl
    _ = .next { feedByte b s with inputs := rest } := by
      rw [exec_feedB, whenIdle_of_idle _ _ hidle, feedByteOf_setWidth, feedByte_withInputs]

/-- The FEED_B writes of a byte string, given to an IDLE block, feed the string. -/
theorem run_feedEvents (bs : List Byte) {s : State} (hs : s.phase = .idle) (rest : List Event) :
    Host.Core.run Sys2Proof.core bs.length { s with inputs := bs.map feedEvent ++ rest } =
      .next { feedBytes bs s with inputs := rest } := by
  induction bs generalizing s with
  | nil => rfl
  | cons b bs ih =>
    calc Host.Core.run Sys2Proof.core (bs.length + 1) { s with inputs := feedEvent b :: (bs.map feedEvent ++ rest) }
        = Host.Core.run Sys2Proof.core bs.length { feedByte b s with inputs := bs.map feedEvent ++ rest } :=
          run_succ_of_step (step_feedEvent hs b _) _
      _ = .next { feedBytes bs (feedByte b s) with inputs := rest } := ih (by rwa [feedByte_phase])

/-! ## What the stream holds -/

/-- The little-endian word of bytes `4n` to `4n+3` of a string (R75). -/
def streamSample (bs : List Byte) (n : Nat) : Word :=
  bs.getD (4 * n + 3) 0#8 ++ bs.getD (4 * n + 2) 0#8 ++ bs.getD (4 * n + 1) 0#8 ++ bs.getD (4 * n) 0#8

/-- `t` holds the byte string `bs`, fed from a state whose SAMPLE was `old`: its length in BYTE_COUNT, its complete
samples in SAMPLE, the bytes of an incomplete one in ASM. -/
structure HoldsStream (old : Vector Word 256) (bs : List Byte) (t : State) : Prop where
  count : t.byteCount.toNat = min bs.length 0xFFFFFFFF
  samples : ∀ n < min (bs.length / 4) 256, readAt t.sample n = streamSample bs n
  pending : ∀ (j : Nat) (h : j < 3), j < t.byteCount.toNat % 4 →
    t.asm[j] = bs.getD (4 * (t.byteCount.toNat / 4) + j) 0#8
  untouched : ∀ n, bs.length / 4 ≤ n → readAt t.sample n = readAt old n

/-- A complete sample does not change as the string grows. -/
theorem streamSample_append {bs : List Byte} {n : Nat} (h : n < bs.length / 4) (b : Byte) :
    streamSample (bs ++ [b]) n = streamSample bs n := by
  unfold streamSample
  rw [List.getD_append _ _ _ _ (by omega), List.getD_append _ _ _ _ (by omega), List.getD_append _ _ _ _ (by omega),
    List.getD_append _ _ _ _ (by omega)]

theorem getD_append_length (bs : List Byte) (b : Byte) : (bs ++ [b]).getD bs.length 0#8 = b := by
  rw [List.getD_append_right _ _ _ _ le_rfl, Nat.sub_self]
  rfl

section
variable {old : Vector Word 256} {bs : List Byte} {t : State}

theorem HoldsStream.feedByte_saturated (h : HoldsStream old bs t) (b : Byte) (hs : t.byteCount = 0xFFFFFFFF#32) :
    HoldsStream old (bs ++ [b]) (feedByte b t) := by
  rw [Machine.feedByte_saturated b hs]
  have hcount := h.count
  have hval : t.byteCount.toNat = 0xFFFFFFFF := by rw [hs]; rfl
  refine ⟨?_, fun n hn => ?_, fun j hj hp => ?_, fun n hn => h.untouched n ?_⟩
  · rw [List.length_append]
    omega
  · rw [streamSample_append (by omega)]
    exact h.samples n (by omega)
  · rw [h.pending j hj hp, List.getD_append _ _ _ _ (by omega)]
  · rw [List.length_append] at hn
    omega

/-- Below saturation BYTE_COUNT is the string's length. -/
theorem HoldsStream.count_eq (h : HoldsStream old bs t) (hs : t.byteCount ≠ 0xFFFFFFFF#32) :
    t.byteCount.toNat = bs.length := by
  have hcount := h.count
  have hval : t.byteCount.toNat ≠ 0xFFFFFFFF := fun heq => hs (BitVec.eq_of_toNat_eq heq)
  omega

theorem HoldsStream.asm_eq (h : HoldsStream old bs t) (hs : t.byteCount ≠ 0xFFFFFFFF#32) {j : Nat} (hj : j < 3)
    (hp : j < bs.length % 4) : t.asm[j] = bs.getD (4 * (bs.length / 4) + j) 0#8 := by
  have hlen := h.count_eq hs
  rw [h.pending j hj (by rwa [hlen]), hlen]

/-- A byte into ASM completes no sample and is one more pending byte. -/
theorem HoldsStream.feedByte_partial (h : HoldsStream old bs t) (b : Byte) (hs : t.byteCount ≠ 0xFFFFFFFF#32)
    (hp : t.byteCount.toNat % 4 < 3) : HoldsStream old (bs ++ [b]) (feedByte b t) := by
  rw [Machine.feedByte_partial b hs hp]
  have hlen := h.count_eq hs
  have hnext : (t.byteCount + 1#32).toNat = bs.length + 1 := by rw [byteCount_succ hs, hlen]
  have hlt := (t.byteCount + 1#32).isLt
  rw [hlen] at hp ⊢
  constructor <;> simp only [hnext, List.length_append, List.length_singleton]
  · omega
  · intro n hn
    rw [streamSample_append (by omega)]
    exact h.samples n (by omega)
  · intro j hj hpend
    rw [show 4 * ((bs.length + 1) / 4) + j = 4 * (bs.length / 4) + j by omega, Vector.getElem_setIfInBounds]
    split
    next heq => rw [← heq, Nat.div_add_mod, getD_append_length]
    next hne => rw [h.asm_eq hs hj (by omega), List.getD_append _ _ _ _ (by omega)]
  · intro n hn
    exact h.untouched n (by omega)

/-- The fourth byte completes the sample of the three pending ones. -/
theorem HoldsStream.feedByte_store (h : HoldsStream old bs t) (b : Byte) (hs : t.byteCount ≠ 0xFFFFFFFF#32)
    (hp : t.byteCount.toNat % 4 = 3) (hn : t.byteCount.toNat / 4 < 256) :
    HoldsStream old (bs ++ [b]) (feedByte b t) := by
  rw [Machine.feedByte_store b hs hp hn]
  have hlen := h.count_eq hs
  have hnext : (t.byteCount + 1#32).toNat = bs.length + 1 := by rw [byteCount_succ hs, hlen]
  rw [hlen] at hp hn ⊢
  have hword : sampleWord t.asm[0] t.asm[1] t.asm[2] b = streamSample (bs ++ [b]) (bs.length / 4) := by
    have hlast : 4 * (bs.length / 4) + 3 = bs.length := by omega
    unfold streamSample
    rw [hlast, getD_append_length, List.getD_append _ _ _ _ (by omega), List.getD_append _ _ _ _ (by omega),
      List.getD_append _ _ _ _ (by omega), h.asm_eq hs (j := 0) (by omega) (by omega),
      h.asm_eq hs (j := 1) (by omega) (by omega), h.asm_eq hs (j := 2) (by omega) (by omega)]
    rfl
  constructor <;> simp only [hnext, List.length_append, List.length_singleton]
  · omega
  · intro n hlt
    obtain rfl | hne := eq_or_ne (bs.length / 4) n
    · rw [readAt_writeAt_self _ _ hn, hword]
    · rw [readAt_writeAt_ne _ _ hne, streamSample_append (by omega)]
      exact h.samples n (by omega)
  · intro j _ hpend
    omega
  · intro n hle
    rw [readAt_writeAt_ne _ _ (by omega)]
    exact h.untouched n (by omega)

/-- From sample 256 on a fourth byte is counted only. -/
theorem HoldsStream.feedByte_beyond (h : HoldsStream old bs t) (b : Byte) (hs : t.byteCount ≠ 0xFFFFFFFF#32)
    (hp : t.byteCount.toNat % 4 = 3) (hn : 256 ≤ t.byteCount.toNat / 4) :
    HoldsStream old (bs ++ [b]) (feedByte b t) := by
  rw [Machine.feedByte_beyond b hs hp hn]
  have hlen := h.count_eq hs
  have hnext : (t.byteCount + 1#32).toNat = bs.length + 1 := by rw [byteCount_succ hs, hlen]
  have hlt := (t.byteCount + 1#32).isLt
  constructor <;> simp only [hnext, List.length_append, List.length_singleton]
  · omega
  · intro n hlt
    rw [streamSample_append (by omega)]
    exact h.samples n (by omega)
  · intro j _ hpend
    omega
  · intro n hle
    exact h.untouched n (by omega)

theorem HoldsStream.feedByte (h : HoldsStream old bs t) (b : Byte) :
    HoldsStream old (bs ++ [b]) (feedByte b t) := by
  by_cases hs : t.byteCount = 0xFFFFFFFF#32
  · exact h.feedByte_saturated b hs
  · by_cases hp : t.byteCount.toNat % 4 < 3
    · exact h.feedByte_partial b hs hp
    · by_cases hn : t.byteCount.toNat / 4 < 256
      · exact h.feedByte_store b hs (by omega) hn
      · exact h.feedByte_beyond b hs (by omega) (by omega)

/-- A string fed from `BYTE_COUNT = 0` is held, by induction on the string from its last byte. -/
theorem holdsStream_feedBytes (bs : List Byte) {s : State} (hs : s.byteCount = 0#32) :
    HoldsStream s.sample bs (feedBytes bs s) := by
  induction bs using List.reverseRecOn with
  | nil => constructor <;> simp [hs]
  | append_singleton bs b ih =>
    rw [feedBytes_append]
    exact ih.feedByte b

end

/-- Settles O33: the FEED_B writes run `feedBytes`, which changes the stream's state at most and holds the string. -/
theorem fedBytesBecomeLittleEndianSamples : Obligations.FedBytesBecomeLittleEndianSamples := by
  intro bs s rest hidle hzero
  obtain ⟨count, samples, pending, untouched⟩ := holdsStream_feedBytes bs hzero
  refine ⟨_, run_feedEvents bs hidle rest, ?_, count, samples, pending, untouched⟩
  exact congrArg (fun t : State => { t with inputs := rest }) (feedBytes_frame bs s)

end Sys2Proof.Machine
end

section
/-! PROOFS. What the host reads (R37, R40, R43 to R45, R131): one lemma a region of the address space, and the fields of
the words that are put together of bits. -/

namespace Sys2Proof.Machine

/-- Bit vectors side by side are digits of one number. -/
theorem toNat_append_eq_add {n m : Nat} (x : BitVec n) (y : BitVec m) :
    (x ++ y).toNat = x.toNat * 2 ^ m + y.toNat := by
  rw [BitVec.toNat_append, Nat.shiftLeft_eq, Nat.mul_comm, ← Nat.two_pow_add_eq_or_of_lt y.isLt]

/-! ## From word addresses to byte offsets -/

theorem toNat_wordAddr {off : Nat} (h : off < 0x2000) : (wordAddr off).toNat = off / 4 := by
  simp only [wordAddr, BitVec.toNat_ofNat]
  omega

/-- The word at offset `off` of the address space. -/
theorem readWord_wordAddr (s : State) {off : Nat} (h : off < 0x2000) (h4 : off % 4 = 0) :
    s.readWord (wordAddr off) = s.readOffset off := by
  rw [State.readWord, toNat_wordAddr h, Nat.mul_div_cancel' (Nat.dvd_of_mod_eq_zero h4)]

/-- A read at offset `off` returns what stands there. -/
theorem exec_rd_wordAddr {s : State} {off : Nat} {w : Word} (h : off < 0x2000) (h4 : off % 4 = 0)
    (hw : s.readOffset off = w) : exec (.rd (wordAddr off)) s = .next { s with rdata := w } := by
  rw [exec_rd, hostRead, readWord_wordAddr s h h4, hw]

/-! ## The regions of R71 -/

theorem readOffset_register (s : State) {off : Nat} (h : off < 0x0400) : s.readOffset off = s.readRegister off :=
  if_pos h

theorem readOffset_sample (s : State) {i : Nat} (h : i < 256) :
    s.readOffset (0x0400 + 4 * i) = s.sampleWindow i := by
  simp (disch := omega) only [State.readOffset, Config.baseSample, if_neg, if_pos, Nat.add_sub_cancel_left,
    Nat.mul_div_cancel_left]

theorem readOffset_re (s : State) {i : Nat} (h : i < 256) :
    s.readOffset (0x0800 + 4 * i) = s.resultWindow s.re i := by
  simp (disch := omega) only [State.readOffset, Config.baseRe, if_neg, if_pos, Nat.add_sub_cancel_left,
    Nat.mul_div_cancel_left]

theorem readOffset_im (s : State) {i : Nat} (h : i < 256) :
    s.readOffset (0x0C00 + 4 * i) = s.resultWindow s.im i := by
  simp (disch := omega) only [State.readOffset, Config.baseIm, if_neg, if_pos, Nat.add_sub_cancel_left,
    Nat.mul_div_cancel_left]

theorem readOffset_mag (s : State) {i : Nat} (h : i < 128) :
    s.readOffset (0x1000 + 4 * i) = s.resultWindow s.mag i := by
  simp (disch := omega) only [State.readOffset, Config.baseMag, if_neg, if_pos, Nat.add_sub_cancel_left,
    Nat.mul_div_cancel_left]

theorem readOffset_out (s : State) {i : Nat} (h : i < 128) :
    s.readOffset (0x1200 + 4 * i) = s.resultWindow s.out i := by
  simp (disch := omega) only [State.readOffset, Config.baseOut, if_neg, if_pos, Nat.add_sub_cancel_left,
    Nat.mul_div_cancel_left]

theorem readOffset_binlut (s : State) {i : Nat} (h : i < 128) :
    s.readOffset (0x1400 + 4 * i) = binlutWord i := by
  simp (disch := omega) only [State.readOffset, Config.baseBinlut, if_neg, if_pos, Nat.add_sub_cancel_left,
    Nat.mul_div_cancel_left]

theorem readOffset_hann (s : State) {i : Nat} (h : i < 256) :
    s.readOffset (0x1800 + 4 * i) = hann i := by
  simp (disch := omega) only [State.readOffset, Config.baseHann, if_neg, if_pos, Nat.add_sub_cancel_left,
    Nat.mul_div_cancel_left]

theorem readOffset_twc (s : State) {i : Nat} (h : i < 128) :
    s.readOffset (0x1C00 + 4 * i) = twc i := by
  simp (disch := omega) only [State.readOffset, Config.baseTwc, if_neg, if_pos, Nat.add_sub_cancel_left,
    Nat.mul_div_cancel_left]

theorem readOffset_tws (s : State) {i : Nat} (h : i < 128) :
    s.readOffset (0x1E00 + 4 * i) = tws i := by
  simp (disch := omega) only [State.readOffset, Config.baseTws, if_neg, Nat.add_sub_cancel_left,
    Nat.mul_div_cancel_left]

/-- The reserved offsets of R37: above the registers, and between BINLUT and HANN. -/
theorem readOffset_reserved (s : State) {off : Nat}
    (h : (0x0038 ≤ off ∧ off ≤ 0x03FC) ∨ (0x1600 ≤ off ∧ off ≤ 0x17FC)) : s.readOffset off = 0#32 := by
  obtain ⟨h1, h2⟩ | ⟨h1, h2⟩ := h
  · rw [readOffset_register s (by omega)]
    unfold State.readRegister Config.offId Config.offParam Config.offCtrl Config.offStatus Config.offByteCount
      Config.offSampleCount Config.offOutLen Config.offOpa Config.offOpb Config.offOpres Config.offFpflags
    iterate 11 rw [if_neg (by omega)]
  · simp (disch := omega) only [State.readOffset, if_neg, if_pos]

/-! ## The data windows (R40) -/

theorem sampleWindow_eq (s : State) (i : Nat) : s.sampleWindow i =
    if s.phase = .running then 0#32
    else if i < min (s.byteCount.toNat / 4) 256 then readAt s.sample i else 0#32 := by
  simp [State.sampleWindow, busy_iff, frameLength, Config.fftSize]

theorem resultWindow_eq (s : State) {n : Nat} (v : Vector Word n) (i : Nat) : s.resultWindow v i =
    if s.phase = .running ∨ s.outLen ≠ 128#32 then 0#32 else readAt v i := by
  simp [State.resultWindow, State.valid, busy_iff]

/-- Settles O14: each window's region, and what the window shows. -/
theorem dataWindowReads : Obligations.DataWindowReads := by
  intro s i
  refine ⟨fun hi => ⟨?_, ?_, ?_⟩, fun hi => ⟨?_, ?_⟩⟩
  · exact exec_rd_wordAddr (by omega) (by omega) ((readOffset_sample s hi).trans (sampleWindow_eq s i))
  · exact exec_rd_wordAddr (by omega) (by omega) ((readOffset_re s hi).trans (resultWindow_eq s _ i))
  · exact exec_rd_wordAddr (by omega) (by omega) ((readOffset_im s hi).trans (resultWindow_eq s _ i))
  · exact exec_rd_wordAddr (by omega) (by omega) ((readOffset_mag s hi).trans (resultWindow_eq s _ i))
  · exact exec_rd_wordAddr (by omega) (by omega) ((readOffset_out s hi).trans (resultWindow_eq s _ i))

/-! ## The ROM windows (R43 to R45) -/

theorem binEnd_le (i : Nat) : binEnd i ≤ 128 := Nat.min_le_right _ _

theorem binStart_lt {i : Nat} (h : i < 128) : binStart i < 128 := by
  have : i * i < 128 * 128 := Nat.mul_lt_mul'' h h
  unfold binStart
  omega

/-- BINLUT's word holds START, END and COUNT, each of which fits its eight bits. -/
theorem binlutWord_fields {i : Nat} (h : i < 128) :
    ((binlutWord i).extractLsb 7 0).toNat = binStart i ∧ ((binlutWord i).extractLsb 15 8).toNat = binEnd i ∧
    ((binlutWord i).extractLsb 23 16).toNat = binCount i ∧ (binlutWord i).extractLsb 31 24 = 0#8 := by
  have hs := binStart_lt h
  have he := binEnd_le i
  have hc : binCount i ≤ 128 := (Nat.sub_le _ _).trans he
  have hword : (binlutWord i).toNat = (binCount i * 2 ^ 8 + binEnd i) * 2 ^ 8 + binStart i := by
    simp only [binlutWord, BitVec.toNat_setWidth, toNat_append_eq_add, BitVec.toNat_ofNat]
    omega
  simp only [← BitVec.toNat_inj, BitVec.extractLsb_toNat, hword, Nat.shiftRight_eq_div_pow, BitVec.toNat_ofNat]
  omega

/-- Settles O15: each ROM's region, and the fields of BINLUT's word. -/
theorem romWindowReads : Obligations.RomWindowReads := by
  intro s i
  refine ⟨fun hi => ⟨binlutWord i, ?_, binlutWord_fields hi⟩, fun hi => ?_, fun hi => ⟨?_, ?_⟩⟩
  · exact exec_rd_wordAddr (by omega) (by omega) (readOffset_binlut s hi)
  · exact exec_rd_wordAddr (by omega) (by omega) (readOffset_hann s hi)
  · exact exec_rd_wordAddr (by omega) (by omega) (readOffset_twc s hi)
  · exact exec_rd_wordAddr (by omega) (by omega) (readOffset_tws s hi)

/-! ## Reserved offsets (R37) -/

theorem isWriteAddr_of_reserved {a : WordAddr} (h : 0x0038 ≤ 4 * a.toNat) : isWriteAddr a = false := by
  simp only [isWriteAddr, Config.writeOffsets, List.contains_eq_mem, decide_eq_false_iff_not, List.mem_map,
    not_exists, not_and]
  rintro off hoff rfl
  have hlt : off < 0x0038 := by
    revert off
    decide
  rw [toNat_wordAddr (by omega)] at h
  omega

/-- Settles O16: a reserved offset is none of the registers and windows, and none of R106's write offsets. -/
theorem reservedOffsetsReadZeroAndIgnoreWrites : Obligations.ReservedOffsetsReadZeroAndIgnoreWrites := by
  intro a v s h
  have hignored := isWriteAddr_of_reserved (a := a) (by omega)
  constructor
  · exact congrArg (fun w => Host.Outcome.next { s with rdata := w }) (readOffset_reserved s h)
  · rw [decode, if_neg (ne_offCmd_of_ignored hignored), decodeBus_ignored v hignored, exec_wrIgnored]

/-! ## The registers (R26, R27, R131) -/

theorem ctrlWord_fields (s : State) :
    s.ctrlWord.getLsbD 0 = s.ie ∧ s.ctrlWord.getLsbD 1 = s.eie ∧ s.ctrlWord.extractLsb 31 2 = 0#30 := by
  unfold State.ctrlWord
  cases s.ie <;> cases s.eie <;> decide

theorem fpflagsWord_fields (s : State) :
    s.fpflagsWord.extractLsb 4 0 = s.fpflags ∧ s.fpflagsWord.extractLsb 31 5 = 0#27 := by
  have := s.fpflags.isLt
  simp only [← BitVec.toNat_inj, State.fpflagsWord, BitVec.extractLsb_toNat, BitVec.toNat_setWidth,
    Nat.shiftRight_eq_div_pow, BitVec.toNat_ofNat]
  omega

theorem toNat_sampleCount (s : State) : s.sampleCount.toNat = s.byteCount.toNat / 4 := by
  simp [State.sampleCount]

/-- STATUS as a number: ECODE from bit 8, IRQ, ERR, DONE and BUSY in bits 3 to 0. -/
theorem toNat_statusWord (s : State) : s.statusWord.toNat =
    s.ecode.toNat * 2 ^ 8 + s.irq.toNat * 2 ^ 3 + s.err.toNat * 2 ^ 2 + s.done.toNat * 2 + s.busy.toNat := by
  have := s.ecode.isLt
  have := s.irq.toNat_le
  have := s.err.toNat_le
  have := s.done.toNat_le
  have := s.busy.toNat_le
  simp only [State.statusWord, bit, BitVec.toNat_setWidth, toNat_append_eq_add, BitVec.toNat_ofBool, BitVec.toNat_ofNat]
  omega

theorem statusWord_flags (s : State) : s.statusWord.getLsbD 0 = decide (s.phase = .running) ∧
    s.statusWord.getLsbD 1 = s.done ∧ s.statusWord.getLsbD 2 = s.err ∧
    s.statusWord.getLsbD 3 = ((s.ie && s.done) || (s.eie && s.err)) := by
  simp only [State.statusWord, BitVec.getLsbD_setWidth, getLsbD_append_bit]
  simp [State.busy, State.irq, beq_eq_decide]

theorem statusWord_fields (s : State) : s.statusWord.extractLsb 7 4 = 0#4 ∧
    s.statusWord.extractLsb 11 8 = s.ecode ∧ s.statusWord.extractLsb 31 12 = 0#20 := by
  have := s.ecode.isLt
  have := s.irq.toNat_le
  have := s.err.toNat_le
  have := s.done.toNat_le
  have := s.busy.toNat_le
  simp only [← BitVec.toNat_inj, BitVec.extractLsb_toNat, toNat_statusWord, Nat.shiftRight_eq_div_pow,
    BitVec.toNat_ofNat]
  omega

/-- Settles O13: each offset's register, and the fields of CTRL, STATUS, SAMPLE_COUNT and FPFLAGS. -/
theorem registerReadsFollowTheMap : Obligations.RegisterReadsFollowTheMap := by
  intro s
  obtain ⟨busy, done, err, irq⟩ := statusWord_flags s
  exact ⟨rfl, rfl, ⟨_, rfl, ctrlWord_fields s⟩, ⟨_, rfl, busy, done, err, irq, statusWord_fields s⟩, rfl, rfl, rfl, rfl,
    ⟨_, rfl, toNat_sampleCount s⟩, rfl, rfl, rfl, rfl, ⟨_, rfl, fpflagsWord_fields s⟩⟩

/-! ## The reset state (R50, R291) -/

/-- With `BYTE_COUNT` and `OUT_LEN` at 0 every data window reads 0. -/
theorem readWord_dataWindow_of_empty {s : State} (hcount : s.byteCount = 0#32) (hlen : s.outLen = 0#32) {a : WordAddr}
    (hlo : 0x0400 ≤ 4 * a.toNat) (hhi : 4 * a.toNat ≤ 0x13FC) : s.readWord a = 0#32 := by
  have hsample : ∀ i, s.sampleWindow i = 0#32 := by simp [sampleWindow_eq, hcount]
  have hresult : ∀ {n : Nat} (v : Vector Word n) i, s.resultWindow v i = 0#32 := by simp [resultWindow_eq, hlen]
  have hreg : ¬ 4 * a.toNat < 0x0400 := by omega
  have hrom : 4 * a.toNat < 0x1400 := by omega
  simp only [State.readWord, State.readOffset, hreg, hrom, if_true, if_false, hsample, hresult, ite_self]

/-- Settles O54: the registers are those of `State.reset`, and its buffer and result are empty. -/
theorem resetStateHasTheStatedValues : Obligations.ResetStateHasTheStatedValues :=
  ⟨rfl, rfl, rfl, rfl, rfl, rfl, rfl, rfl, rfl, rfl, rfl, rfl, rfl, rfl, rfl,
    fun _ hlo hhi => readWord_dataWindow_of_empty rfl rfl hlo hhi⟩

end Sys2Proof.Machine
end

section
/-! PROOFS. Which operations write each piece of state (R26, R31, R33 to R36, R38, R49, R138, R215): from "nothing
changed", each operation accounts for the fields it writes. -/

namespace Sys2Proof.Machine

/-- From `s` to `t` each changed field has its named cause, where `op` is the host's operation, if any, and `completes`
says whether a run completes. -/
structure NamedWrites (op : Option Instr) (completes : Bool) (s t : State) : Prop where
  ctrl : (t.ie ≠ s.ie ∨ t.eie ≠ s.eie) → ∃ v : Word, op = some (.wrCtrl v)
  busySet : s.phase = .idle → t.phase = .running → op = some .start
  busyCleared : s.phase = .running → t.phase = .idle → completes = true
  doneSet : s.done = false → t.done = true → completes = true
  doneCleared : s.done = true → t.done = false → (s.phase = .idle ∧ op = some .start) ∨
    ∃ v : Word, op = some (.wrStatus v) ∧ v.getLsbD 1 = true
  errSet : s.err = false → t.err = true →
    (s.phase = .running ∧ ∃ i : Instr, op = some i ∧ isCmdOrFeedWrite i = true) ∨ ∃ v : Word, op = some (.wrCmd v)
  errCleared : s.err = true → t.err = false → t.ecode = 0#4 ∧
    ∃ v : Word, op = some (.wrStatus v) ∧ v.getLsbD 2 = true
  ecode : t.ecode ≠ s.ecode → (s.err = false ∧ t.err = true) ∨
    ∃ v : Word, op = some (.wrStatus v) ∧ v.getLsbD 2 = true
  opa : t.opa ≠ s.opa → ∃ v : Word, op = some (.wrOpa v)
  opb : t.opb ≠ s.opb → ∃ v : Word, op = some (.wrOpb v)
  opres : t.opres ≠ s.opres → ∃ f : FpSel, op = some (commandInstr (.fpop f))
  fpflags : ∀ k < 5,
    (s.fpflags.getLsbD k = false → t.fpflags.getLsbD k = true → ∃ f : FpSel, op = some (commandInstr (.fpop f))) ∧
    (s.fpflags.getLsbD k = true → t.fpflags.getLsbD k = false →
      ∃ v : Word, op = some (.wrFpflags v) ∧ v.getLsbD k = true)
  stream : (t.byteCount ≠ s.byteCount ∨ t.asm ≠ s.asm) → op = some .clear ∨
    ∃ v : Word, op = some (.feedB v) ∨ op = some (.feedW v)
  sample : t.sample ≠ s.sample → ∃ v : Word, op = some (.feedB v) ∨ op = some (.feedW v)
  result : (t.outLen ≠ s.outLen ∨ t.re ≠ s.re ∨ t.im ≠ s.im ∨ t.mag ≠ s.mag ∨ t.out ≠ s.out) → completes = true
  rdata : t.rdata ≠ s.rdata → ∃ a : WordAddr, op = some (.rd a)

variable {op : Option Instr} {i : Instr} {completes : Bool} {s : State}

/-- Where nothing changed, there is nothing to account for. -/
theorem NamedWrites.refl (op : Option Instr) (completes : Bool) (s : State) : NamedWrites op completes s s := by
  constructor <;> simp_all

/-- An error is raised by a write rejected while BUSY, or by a CMD word that is no command. -/
theorem namedWrites_raiseError (code : ErrorCode)
    (hcause : (s.phase = .running ∧ isCmdOrFeedWrite i = true) ∨ ∃ v, i = .wrCmd v) :
    NamedWrites (some i) completes s (raiseError code s) :=
  { NamedWrites.refl (some i) completes s with
    errSet := fun _ _ => hcause.imp (fun ⟨hrun, hi⟩ => ⟨hrun, i, rfl, hi⟩) (fun ⟨v, hv⟩ => ⟨v, congrArg some hv⟩)
    errCleared := nofun
    ecode := fun hne => .inl ⟨by cases herr : s.err <;> simp_all, rfl⟩ }

theorem namedWrites_whenIdle (hi : isCmdOrFeedWrite i = true) (code : ErrorCode) {f : State → State}
    (hf : s.phase = .idle → NamedWrites (some i) completes s (f s)) :
    NamedWrites (some i) completes s (whenIdle code f s) := by
  cases hbusy : s.busy with
  | true =>
    rw [whenIdle_of_busy _ _ hbusy]
    exact namedWrites_raiseError code (.inl ⟨(busy_iff s).mp hbusy, hi⟩)
  | false =>
    rw [whenIdle_of_idle _ _ hbusy]
    exact hf ((not_busy_iff s).mp hbusy)

/-- An FPOP's flags are ORed in, so none is cleared. -/
theorem namedWrites_fpop (f : FpSel) :
    NamedWrites (some (commandInstr (.fpop f))) completes s (fpop f s) :=
  { NamedWrites.refl (some (commandInstr (.fpop f))) completes s with
    opres := fun _ => ⟨f, rfl⟩
    fpflags := fun k _ => ⟨fun _ _ => ⟨f, rfl⟩, fun hset hclear => by
      simp [accumulateFlags, hset] at hclear⟩ }

theorem namedWrites_commandEffect (c : Command) (hidle : s.phase = .idle) :
    NamedWrites (some (commandInstr c)) completes s (commandEffect c s) := by
  have hrefl := NamedWrites.refl (some (commandInstr c)) completes s
  cases c with
  | nop => exact hrefl
  | clear => exact { hrefl with stream := fun _ => .inl rfl }
  | start => exact { hrefl with
      busySet := fun _ _ => rfl
      busyCleared := nofun
      doneSet := nofun
      doneCleared := fun _ _ => .inl ⟨hidle, rfl⟩ }
  | fpop f => exact namedWrites_fpop f

theorem namedWrites_feedBytes (bs : List Byte) {v : Word} (hi : i = .feedB v ∨ i = .feedW v) :
    NamedWrites (some i) completes s (feedBytes bs s) := by
  have hop := hi.imp (congrArg some) (congrArg some)
  rw [feedBytes_frame]
  exact { NamedWrites.refl (some i) completes s with
    stream := fun _ => .inr ⟨v, hop⟩
    sample := fun _ => ⟨v, hop⟩ }

theorem namedWrites_wrStatus (v : Word) : NamedWrites (some (.wrStatus v)) completes s
    { s with done := s.done && !v.getLsbD 1
             err := s.err && !v.getLsbD 2
             ecode := if v.getLsbD 2 then 0#4 else s.ecode } :=
  { NamedWrites.refl (some (.wrStatus v)) completes s with
    doneSet := fun hclear hset => by simp [hclear] at hset
    doneCleared := fun hset hclear => .inr ⟨v, rfl, by simpa [hset] using hclear⟩
    errSet := fun hclear hset => by simp [hclear] at hset
    errCleared := fun hset hclear => by
      have hv : v.getLsbD 2 = true := by simpa [hset] using hclear
      exact ⟨if_pos hv, v, rfl, hv⟩
    ecode := fun hne => .inr ⟨v, rfl, by
      by_contra hv
      exact hne (if_neg hv)⟩ }

/-- W1C of FPFLAGS clears named flags only, and sets none. -/
theorem namedWrites_wrFpflags (v : Word) :
    NamedWrites (some (.wrFpflags v)) completes s { s with fpflags := clearFlags s.fpflags v } :=
  { NamedWrites.refl (some (.wrFpflags v)) completes s with
    fpflags := fun k hk => by
      have hbit : (clearFlags s.fpflags v).getLsbD k = (s.fpflags.getLsbD k && !v.getLsbD k) := by
        simp [clearFlags, hk]
      dsimp only
      rw [hbit]
      exact ⟨fun hclear hset => by simp [hclear] at hset, fun hset hclear => ⟨v, rfl, by simpa [hset] using hclear⟩⟩ }

theorem commandInstr_ne_wrCmd (c : Command) (v : Word) : commandInstr c ≠ .wrCmd v := by
  cases c with
  | fpop f => cases f <;> nofun
  | _ => nofun

/-- The decoder reads a write to CMD as WR.CMD only where its word is no legal command (log 9). -/
theorem decodeCmd_of_decode_wrCmd {a : BusAccess} {v : Word} (h : decode a = .wrCmd v) :
    ∃ code, decodeCmd v = .error code := by
  cases a with
  | read a => cases h
  | write a w =>
    rw [decode] at h
    split at h
    next =>
      unfold decodeCmdWrite at h
      split at h
      next c _ => exact absurd h (commandInstr_ne_wrCmd c v)
      next code hcode => cases h; exact ⟨code, hcode⟩
    next hne =>
      simp only [decodeBus] at h
      split_ifs at h

theorem namedWrites_exec {a : BusAccess} {t : State} (ht : exec (decode a) s = .next t) :
    NamedWrites (some (decode a)) completes s t := by
  generalize hi : decode a = i at ht ⊢
  induction i using rowCases with
  | command c =>
    rw [exec_commandInstr] at ht
    cases ht
    refine namedWrites_whenIdle ?_ _ (namedWrites_commandEffect c)
    cases c with
    | fpop f => cases f <;> rfl
    | _ => rfl
  | wrCtrl v => cases ht; exact { NamedWrites.refl _ completes s with ctrl := fun _ => ⟨v, rfl⟩ }
  | wrStatus v =>
    rw [exec_wrStatus] at ht
    cases ht
    exact namedWrites_wrStatus v
  | wrCmd v =>
    obtain ⟨code, hcode⟩ := decodeCmd_of_decode_wrCmd hi
    cases ht
    refine namedWrites_whenIdle rfl _ fun _ => ?_
    rw [hcode]
    exact namedWrites_raiseError code (.inr ⟨v, rfl⟩)
  | feedW v => cases ht; exact namedWrites_whenIdle rfl _ fun _ => namedWrites_feedBytes _ (.inr rfl)
  | feedB v => cases ht; exact namedWrites_whenIdle rfl _ fun _ => namedWrites_feedBytes [feedByteOf v] (.inl rfl)
  | wrOpa v => cases ht; exact { NamedWrites.refl _ completes s with opa := fun _ => ⟨v, rfl⟩ }
  | wrOpb v => cases ht; exact { NamedWrites.refl _ completes s with opb := fun _ => ⟨v, rfl⟩ }
  | wrFpflags v => cases ht; exact namedWrites_wrFpflags v
  | wrIgnored a v => cases ht; exact NamedWrites.refl _ completes s
  | rd a => cases ht; exact { NamedWrites.refl _ completes s with rdata := fun _ => ⟨a, rfl⟩ }

theorem namedWrites_engineTurn : NamedWrites op s.busy s (engineTurn s) := by
  cases hbusy : s.busy with
  | false =>
    rw [engineTurn_of_idle hbusy]
    exact NamedWrites.refl op false s
  | true =>
    rw [engineTurn_of_busy hbusy, complete]
    split <;> exact { NamedWrites.refl op true s with
      busySet := nofun
      busyCleared := fun _ _ => rfl
      doneSet := fun _ _ => rfl
      doneCleared := nofun
      result := fun _ => rfl }

theorem namedWrites_step {t : State} (ht : step s = .next t) (hreset : nextIsReset s = false) :
    NamedWrites (nextInstr s) (nextCompletes s) s t := by
  obtain ⟨hi, rfl⟩ | ⟨a, rest, hi, ht⟩ | ⟨rest, hi, rfl⟩ | ⟨p, rest, hi, rfl⟩ := step_cases ht
  · simp only [nextInstr, nextCompletes, hi]
    exact namedWrites_engineTurn
  · simp only [nextInstr, nextCompletes, hi]
    exact { namedWrites_exec (completes := false) ht with }
  · simp only [nextInstr, nextCompletes, hi]
    exact { namedWrites_engineTurn (op := none) (s := { s with inputs := rest }) with }
  · simp [nextIsReset, hi] at hreset

/-- Settles O52: each event but a reset edge accounts for the fields it writes. -/
theorem onlyNamedOperationsWriteEachRegister : Obligations.OnlyNamedOperationsWriteEachRegister := by
  intro s t ht hreset
  obtain ⟨ctrl, busySet, busyCleared, doneSet, doneCleared, errSet, errCleared, ecode, opa, opb, opres, fpflags, stream,
    sample, result, rdata⟩ := namedWrites_step ht hreset
  exact ⟨ctrl, busySet, busyCleared, doneSet, doneCleared, errSet, errCleared, ecode, opa, opb, opres, fpflags, stream,
    sample, result, rdata⟩

end Sys2Proof.Machine
end

section
/-! PROOFS. The Host's side of the block (R73, R78, R80 to R82): an address names its word, and an access is one step,
which always answers; while a run is in progress no access touches the run or the last results (R86, R279, R296). -/

namespace Sys2Proof.Machine

variable {s t : State}

/-! ## Addresses (R72, R73) -/

theorem portAddr_eq_wordAddr (a : ByteAddr) : portAddr a = wordAddr (a.toNat - a.toNat % 4) := by
  refine BitVec.eq_of_toNat_eq ?_
  have := a.isLt
  rw [toNat_wordAddr (by omega), portAddr, BitVec.extractLsb_toNat, Nat.shiftRight_eq_div_pow]
  omega

/-- Settles O4: the port drops address bits 1:0. -/
theorem misalignedAccessReachesItsWord : Obligations.MisalignedAccessReachesItsWord := fun a v =>
  ⟨congrArg BusAccess.read (portAddr_eq_wordAddr a), congrArg (BusAccess.write · v) (portAddr_eq_wordAddr a)⟩

/-! ## One step (R80 to R82, R260) -/

theorem encode_commandInstr (c : Command) : encode (commandInstr c) = commandAccess c := by
  cases c with
  | fpop f => cases f <;> rfl
  | _ => rfl

/-- A well-formed operation's access decodes to it: a CMD word by its own decoder, a refused word and an unlisted
address by what well-formedness says of them, every other row by its address. -/
theorem decode_encode {i : Instr} (h : i.wellFormed = true) : decode (encode i) = i := by
  induction i using rowCases with
  | command c => rw [encode_commandInstr, decode_commandAccess]
  | wrCmd v => exact decodeCmdWrite_of_not_cmdWord (by simpa [Instr.wellFormed] using h)
  | wrIgnored a v =>
    have hunlisted : isWriteAddr a = false := by simpa [Instr.wellFormed] using h
    rw [encode, decode, if_neg (ne_offCmd_of_ignored hunlisted), decodeBus_ignored v hunlisted]
  | _ => rfl

theorem step_access {a : BusAccess} {rest : List Event} (h : s.inputs = .access a :: rest) :
    step s = exec (decode a) { s with inputs := rest } := by
  simp only [step, h]

/-- Settles O5: a step takes the access off the list and runs what it decodes to, and a well-formed operation's own
access decodes to that operation. -/
theorem stepRunsTheDecodedAccess : Obligations.StepRunsTheDecodedAccess :=
  ⟨fun _ _ _ h => step_access h, fun _ _ _ hi h => by rw [step_access h, decode_encode hi]⟩

/-- Settles O6: every operation completes, and the Engine's turn and a reset edge are functions of the state. -/
theorem everyStepAnswersANextState : Obligations.EveryStepAnswersANextState := by
  intro s
  unfold step
  split
  · exact ⟨_, rfl⟩
  next a rest _ => exact exec_completes (decode a) { s with inputs := rest }
  · exact ⟨_, rfl⟩
  · exact ⟨_, rfl⟩

/-! ## Reads (R78) -/

/-- The word last read is part of no word that a read returns. -/
theorem readWord_withRdata (s : State) (w : Word) (a : WordAddr) :
    State.readWord { s with rdata := w } a = s.readWord a := rfl

theorem hostRead_hostRead (a : WordAddr) (s : State) : hostRead a (hostRead a s) = hostRead a s :=
  congrArg (fun w => { s with rdata := w }) (readWord_withRdata s (s.readWord a) a)

/-- Settles O12: a read stores the word it returns in `rdata`, which no later read returns. -/
theorem readsChangeNothingAndRepeat : Obligations.ReadsChangeNothingAndRepeat := fun a s =>
  ⟨s.readWord a, exec_rd a s, congrArg Host.Outcome.next (hostRead_hostRead a s)⟩

/-! ## A run in progress (R86, R279, R296) -/

/-- From `s` to `t` the Engine's phase, what a run reads and the last results are kept. -/
structure KeepsRun (s t : State) : Prop where
  phase : t.phase = s.phase
  sample : t.sample = s.sample
  byteCount : t.byteCount = s.byteCount
  asm : t.asm = s.asm
  re : t.re = s.re
  im : t.im = s.im
  mag : t.mag = s.mag
  out : t.out = s.out
  outLen : t.outLen = s.outLen
  opres : t.opres = s.opres

theorem KeepsRun.refl (s : State) : KeepsRun s s := by constructor <;> rfl

theorem KeepsRun.trans {u : State} (h : KeepsRun s t) (h' : KeepsRun t u) : KeepsRun s u where
  phase := h'.phase.trans h.phase
  sample := h'.sample.trans h.sample
  byteCount := h'.byteCount.trans h.byteCount
  asm := h'.asm.trans h.asm
  re := h'.re.trans h.re
  im := h'.im.trans h.im
  mag := h'.mag.trans h.mag
  out := h'.out.trans h.out
  outLen := h'.outLen.trans h.outLen
  opres := h'.opres.trans h.opres

/-- What only an IDLE block accepts is rejected while BUSY, and the rejection sets ERR and ECODE at most (R296). -/
theorem keepsRun_whenIdle (hrun : s.phase = .running) (code : ErrorCode) (f : State → State) :
    KeepsRun s (whenIdle code f s) := by
  rw [whenIdle_of_busy code f ((busy_iff s).mpr hrun)]
  exact { KeepsRun.refl s with }

/-- An operation while BUSY: commands and fed bytes are rejected, and the other rows write enables, flags, operands
and `rdata` only. -/
theorem keepsRun_exec {i : Instr} (hrun : s.phase = .running) (ht : exec i s = .next t) : KeepsRun s t := by
  induction i using rowCases with
  | command c =>
    rw [exec_commandInstr] at ht
    cases ht
    exact keepsRun_whenIdle hrun _ _
  | wrStatus v =>
    rw [exec_wrStatus] at ht
    cases ht
    exact { KeepsRun.refl s with }
  | wrCmd v => cases ht; exact keepsRun_whenIdle hrun _ _
  | feedW v => cases ht; exact keepsRun_whenIdle hrun _ _
  | feedB v => cases ht; exact keepsRun_whenIdle hrun _ _
  | _ => cases ht; exact { KeepsRun.refl s with }

theorem isAccess_iff (e : Event) : isAccess e = true ↔ ∃ a, e = .access a := by
  cases e <;> simp [isAccess]

/-- A listed access is a step that takes it off the list and keeps the run in progress. -/
theorem exists_step_keepsRun {a : BusAccess} {rest : List Event} (hrun : s.phase = .running)
    (hi : s.inputs = .access a :: rest) : ∃ t, step s = .next t ∧ t.inputs = rest ∧ KeepsRun s t := by
  obtain ⟨t, ht⟩ := exec_completes (decode a) { s with inputs := rest }
  exact ⟨t, (step_access hi).trans ht, exec_inputs ht, { keepsRun_exec (s := { s with inputs := rest }) hrun ht with }⟩

/-- Listed accesses run to their end and keep the run in progress. -/
theorem exists_run_keepsRun {es rest : List Event} (hrun : s.phase = .running) (hi : s.inputs = es ++ rest)
    (hes : ∀ e ∈ es, isAccess e = true) :
    ∃ t, Host.Core.run Sys2Proof.core es.length s = .next t ∧ t.inputs = rest ∧ KeepsRun s t := by
  induction es generalizing s with
  | nil => exact ⟨s, rfl, hi, KeepsRun.refl s⟩
  | cons e es ih =>
    obtain ⟨he, hrest⟩ := List.forall_mem_cons.mp hes
    obtain ⟨a, rfl⟩ := (isAccess_iff e).mp he
    obtain ⟨u, hstep, hu, hkeep⟩ := exists_step_keepsRun hrun hi
    obtain ⟨t, hruns, ht, hkeep'⟩ := ih (hkeep.phase.trans hrun) hu hrest
    exact ⟨t, (run_succ_of_step hstep _).trans hruns, ht, hkeep.trans hkeep'⟩

/-- Settles O48, by induction on the accesses: each is rejected or writes nothing of the run, and leaves the Engine
RUNNING for the next. -/
theorem hostAccessesCannotTouchARun : Obligations.HostAccessesCannotTouchARun := by
  intro es rest s hrun hes
  obtain ⟨t, hruns, ht, hkeep⟩ := exists_run_keepsRun (s := { s with inputs := es ++ rest }) hrun rfl hes
  exact ⟨t, hruns, ht, hkeep.phase.trans hrun, hkeep.sample, hkeep.byteCount, hkeep.asm, hkeep.re, hkeep.im,
    hkeep.mag, hkeep.out, hkeep.outLen, hkeep.opres⟩

end Sys2Proof.Machine
end

section
/-! PROOFS. The encoding (R100 to R106, R110, R120 to R122): decoder and encoder are inverse to each other on the
well-formed operations, DecodeCmd takes its checks in R105's order, and the lines of HTL. -/

namespace Sys2Proof.Machine

/-! ## Decoder and encoder (R100, R106, R110) -/

/-- Settles O1: `decode_encode` for every well-formed operation. -/
theorem decodeOfEncodeIsIdentity : Obligations.DecodeOfEncodeIsIdentity := fun _ => decode_encode

/-- Settles O3: each access is the encoding of the well-formed operation it stands for. -/
theorem writtenOutAccessesDecode : Obligations.WrittenOutAccessesDecode :=
  ⟨decode_encode (i := .nop) rfl, decode_encode (i := .start) rfl, decode_encode (i := .fpopFmag) rfl,
    decode_encode (i := .wrCmd 0x00001F03#32) rfl, decode_encode (i := .wrFpflags 0x0000001F#32) rfl,
    decode_encode (i := .feedW 0x3F800000#32) rfl, decode_encode (i := .wrIgnored 0x7FF#11 0x00000001#32) rfl,
    decode_encode (i := .rd 0x4FF#11) rfl⟩

theorem wellFormed_commandInstr (c : Command) : (commandInstr c).wellFormed = true := by
  cases c with
  | fpop f => cases f <;> rfl
  | _ => rfl

/-- The addresses of R106's table, one disequation a row. -/
theorem isWriteAddr_eq_false_iff (a : WordAddr) : isWriteAddr a = false ↔
    a ≠ wordAddr Config.offCtrl ∧ a ≠ wordAddr Config.offStatus ∧ a ≠ wordAddr Config.offCmd ∧
    a ≠ wordAddr Config.offFeedW ∧ a ≠ wordAddr Config.offFeedB ∧ a ≠ wordAddr Config.offOpa ∧
    a ≠ wordAddr Config.offOpb ∧ a ≠ wordAddr Config.offFpflags := by
  simp [isWriteAddr, Config.writeOffsets]

/-- A write to CMD reads as a command with that word, or as WR.CMD of a word that is no command. -/
theorem decodeCmdWrite_reading (v : Word) :
    (decodeCmdWrite v).wellFormed = true ∧ encode (decodeCmdWrite v) = .write (wordAddr Config.offCmd) v := by
  unfold decodeCmdWrite
  split
  next c hc =>
    rw [encode_commandInstr, commandAccess, encodeCmd_of_decodeCmd hc]
    exact ⟨wellFormed_commandInstr c, rfl⟩
  next code hcode =>
    have hword : isCmdWord v ≠ true := fun hv => by
      obtain ⟨c, hc⟩ := (decodeCmd_ok_iff v).mpr hv
      cases hcode.symm.trans hc
    exact ⟨by simpa [Instr.wellFormed] using hword, rfl⟩

/-- The BUS decoder chooses a row by the address that the row's encoding has. -/
theorem encode_decodeBus (a : BusAccess) : encode (decodeBus a) = a := by
  cases a with
  | read a => rfl
  | write a v =>
    rw [decodeBus]
    split_ifs <;> simp [encode, *]

/-- The BUS decoder ignores a write only at an address that differs from every row's. -/
theorem wellFormed_decodeBus_write {a : WordAddr} (hcmd : a ≠ wordAddr Config.offCmd) (v : Word) :
    (decodeBus (.write a v)).wellFormed = true := by
  rw [decodeBus]
  split_ifs <;> simp [Instr.wellFormed, isWriteAddr_eq_false_iff, *]

/-- Settles O2: a read, a write to CMD and a write elsewhere, each by its own decoder. -/
theorem everyAccessHasOneWellFormedReading : Obligations.EveryAccessHasOneWellFormedReading := by
  intro a
  cases a with
  | read a => exact ⟨rfl, rfl⟩
  | write a v =>
    rw [decode]
    split
    next hcmd => rw [hcmd]; exact decodeCmdWrite_reading v
    next hcmd => exact ⟨wellFormed_decodeBus_write hcmd v, encode_decodeBus (.write a v)⟩

/-! ## DecodeCmd (R105): the first check that fails -/

theorem decodeCmd_badOpc {v : Word} (hopc : cmdOpc v > 3#8) : decodeCmd v = .error .badOpc := by
  simp [decodeCmd, hopc]

/-- NOP, CLEAR and START have no field but OPC (R104). -/
theorem decodeCmd_badRsv_of_lt {v : Word} (hopc : cmdOpc v < 3#8) (hhigh : cmdHigh v ≠ 0#24) :
    decodeCmd v = .error .badRsv := by
  have hle : ¬ cmdOpc v > 3#8 := by bv_omega
  have hne : cmdOpc v ≠ 3#8 := by bv_omega
  rw [decodeCmd, if_neg hle, if_pos ⟨hne, hhigh⟩]

theorem decodeCmd_badRsv_of_eq {v : Word} (hopc : cmdOpc v = 3#8) (hres : cmdRes v ≠ 0#20) :
    decodeCmd v = .error .badRsv := by
  simp [decodeCmd, hopc, hres]

theorem decodeCmd_badFsel {v : Word} (hopc : cmdOpc v = 3#8) (hres : cmdRes v = 0#20) (hfsel : cmdFsel v > 6#4) :
    decodeCmd v = .error .badFsel := by
  simp [decodeCmd, hopc, hres, hfsel]

theorem withErrorRecorded_errorCode (code : ErrorCode) (s : State) :
    withErrorRecorded (errorCode code) s = raiseError code s := rfl

theorem runCommand_of_idle {s : State} (hidle : s.phase = .idle) (c : Command) : runCommand c s = commandEffect c s :=
  whenIdle_of_idle _ _ ((not_busy_iff s).mpr hidle)

theorem exec_wrCmd_of_running {s : State} (hrun : s.phase = .running) (v : Word) :
    exec (.wrCmd v) s = .next (withErrorRecorded 4#4 s) := by
  rw [exec_wrCmd, writeCmd, whenIdle_of_busy _ _ ((busy_iff s).mpr hrun)]
  rfl

/-- A word the CMD decoder refuses records the decoder's code and does nothing else. -/
theorem exec_wrCmd_of_error {s : State} (hidle : s.phase = .idle) {v : Word} {code : ErrorCode}
    (hcode : decodeCmd v = .error code) : exec (.wrCmd v) s = .next (withErrorRecorded (errorCode code) s) := by
  rw [exec_wrCmd, writeCmd, whenIdle_of_idle _ _ ((not_busy_iff s).mpr hidle), hcode, withErrorRecorded_errorCode]

/-- WR.CMD of a command's word is that command's row, in every state (log 9). -/
theorem exec_wrCmd_encodeCmd (c : Command) (s : State) : exec (.wrCmd (encodeCmd c)) s = exec (commandInstr c) s := by
  rw [exec_wrCmd, writeCmd, decodeCmd_encodeCmd, exec_commandInstr, runCommand]

theorem exec_wrCmd_encodeCmd_of_idle {s : State} (hidle : s.phase = .idle) (c : Command) :
    exec (.wrCmd (encodeCmd c)) s = .next (commandEffect c s) := by
  rw [exec_wrCmd_encodeCmd, exec_commandInstr, runCommand_of_idle hidle]

/-- Settles O18: BUSY first, then the check of `decodeCmd` that fails first, then the command of the word. -/
theorem wrCmdDecodesByPriority : Obligations.WrCmdDecodesByPriority := by
  refine fun v s => ⟨fun hrun => exec_wrCmd_of_running hrun v, fun hidle => ⟨?badOpc, ?badHigh, ?badRes, ?badFsel,
    ?nop, ?clear, ?start, ?fadd, ?fsub, ?fmul, ?fdiv, ?fsqrt, ?fmag, ?fclamp⟩⟩
  case badOpc => exact fun hopc => exec_wrCmd_of_error hidle (decodeCmd_badOpc hopc)
  case badHigh => exact fun hopc hhigh => exec_wrCmd_of_error hidle (decodeCmd_badRsv_of_lt hopc hhigh)
  case badRes => exact fun hopc hres => exec_wrCmd_of_error hidle (decodeCmd_badRsv_of_eq hopc hres)
  case badFsel => exact fun hopc hres hfsel => exec_wrCmd_of_error hidle (decodeCmd_badFsel hopc hres hfsel)
  case nop => rintro rfl; exact exec_wrCmd_encodeCmd_of_idle hidle .nop
  case clear => rintro rfl; exact exec_wrCmd_encodeCmd_of_idle hidle .clear
  case start => rintro rfl; exact exec_wrCmd_encodeCmd_of_idle hidle .start
  case fadd => rintro rfl; exact exec_wrCmd_encodeCmd (.fpop .fadd) s
  case fsub => rintro rfl; exact exec_wrCmd_encodeCmd (.fpop .fsub) s
  case fmul => rintro rfl; exact exec_wrCmd_encodeCmd (.fpop .fmul) s
  case fdiv => rintro rfl; exact exec_wrCmd_encodeCmd (.fpop .fdiv) s
  case fsqrt => rintro rfl; exact exec_wrCmd_encodeCmd (.fpop .fsqrt) s
  case fmag => rintro rfl; exact exec_wrCmd_encodeCmd (.fpop .fmag) s
  case fclamp => rintro rfl; exact exec_wrCmd_encodeCmd (.fpop .fclamp) s

/-! ## HTL (R120 to R122) -/

theorem htlLines_htlWr (offset : Nat) (v : Word) : htlLines (htlWr offset v) = [.write (htlAddr offset 0) v] := rfl

theorem htlLines_htlCommand (c : Command) : htlLines (htlCommand c) = [.write 0x0010#13 (encodeCmd c)] :=
  htlLines_htlWr Config.offCmd (encodeCmd c)

/-- `rep` is its body once more than one repetition less (R120). -/
theorem htlLines_rep_succ (n : Nat) (p : Htl) : htlLines (.rep (n + 1) p) = htlLines p ++ htlLines (.rep n p) := by
  simp only [htlLines, List.replicate_succ, List.flatten_cons]

theorem pollEnds_iff (mask value word : Word) : pollEnds mask value word = true ↔ word &&& mask = value :=
  beq_iff_eq

/-- Settles O58: a pseudo-instruction is the write of its word at its register's offset, or the poll of STATUS. -/
theorem htlPseudoInstructionsEncode : Obligations.HtlPseudoInstructionsEncode :=
  ⟨htlLines_htlCommand .nop, htlLines_htlCommand .clear, htlLines_htlCommand .start, htlLines_htlCommand (.fpop .fadd),
    htlLines_htlCommand (.fpop .fsub), htlLines_htlCommand (.fpop .fmul), htlLines_htlCommand (.fpop .fdiv),
    htlLines_htlCommand (.fpop .fsqrt), htlLines_htlCommand (.fpop .fmag), htlLines_htlCommand (.fpop .fclamp),
    fun v => ⟨htlLines_htlWr Config.offOpa v, htlLines_htlWr Config.offOpb v, htlLines_htlWr Config.offFeedW v⟩,
    fun b => htlLines_htlWr Config.offFeedB (b.setWidth 32), rfl, htlLines_htlWr Config.offStatus 0x00000002#32,
    htlLines_htlWr Config.offStatus 0x00000004#32, fun _ _ _ => ⟨rfl, rfl, rfl⟩, fun _ _ => ⟨rfl, rfl⟩,
    fun n p => ⟨rfl, htlLines_rep_succ n p⟩, fun _ _ _ _ => ⟨rfl, rfl, rfl⟩, pollEnds_iff⟩

end Sys2Proof.Machine
end

section
/-! PROOFS. The host's operations (R132 to R151): the register writes, the commands while IDLE and while BUSY, and the
byte stream's two accesses, where FEED_W is FEED_B of each of its bytes in turn. -/

namespace Sys2Proof.Machine

variable {s : State}

/-! ## Register writes (R132 to R135, R151) -/

/-- CTRL's two enables, written from `v[0]` and `v[1]`, are the low two bits of `v`. -/
theorem ctrlWord_withEnables (v : Word) (s : State) :
    State.ctrlWord { s with ie := v.getLsbD 0, eie := v.getLsbD 1 } = v &&& 0x00000003#32 := by
  refine BitVec.eq_of_getLsbD_eq fun k hk => ?_
  have hmask : (0x00000003#32).getLsbD k = decide (k < 2) := by
    revert k
    decide
  rw [BitVec.getLsbD_and, hmask]
  simp only [State.ctrlWord, BitVec.getLsbD_setWidth, getLsbD_append_bit, hk, decide_true, Bool.true_and]
  match k with
  | 0 => simp
  | 1 => simp [bit]
  | k + 2 => simp [bit]

/-- An enable that is set while its flag is 1 raises irq (R48). -/
theorem irq_of_enabled (h : (s.done = true ∧ s.ie = true) ∨ (s.err = true ∧ s.eie = true)) : s.irq = true := by
  obtain ⟨hflag, henable⟩ | ⟨hflag, henable⟩ := h <;> simp [State.irq, hflag, henable]

/-- Settles O7: CTRL reads the two enables, and irq is the OR of the enabled flags. -/
theorem wrCtrlSetsTheEnables : Obligations.WrCtrlSetsTheEnables := fun v s =>
  ⟨decode_encode (i := .wrCtrl v) rfl, exec_wrCtrl v s,
    (readWord_wordAddr _ (by decide) (by decide)).trans (ctrlWord_withEnables v s), fun h => irq_of_enabled h⟩

/-- Settles O8: `exec_wrStatus` at STATUS's address. -/
theorem wrStatusClearsDoneAndErr : Obligations.WrStatusClearsDoneAndErr := fun v s =>
  ⟨decode_encode (i := .wrStatus v) rfl, exec_wrStatus v s⟩

/-- Settles O9: the rows' effects, and OPA and OPB read at their offsets. -/
theorem operandRegistersHoldTheWrittenWord : Obligations.OperandRegistersHoldTheWrittenWord := fun v s =>
  ⟨decode_encode (i := .wrOpa v) rfl, decode_encode (i := .wrOpb v) rfl, exec_wrOpa v s, exec_wrOpb v s,
    readWord_wordAddr _ (by decide) (by decide), readWord_wordAddr _ (by decide) (by decide)⟩

/-- W1C of FPFLAGS, flag by flag. -/
theorem getLsbD_clearFlags (old : FlagSet) (v : Word) {k : Nat} (hk : k < 5) :
    (clearFlags old v).getLsbD k = (old.getLsbD k && !v.getLsbD k) := by
  simp [clearFlags, hk]

/-- Settles O10: the new flags are `clearFlags` of the old ones. -/
theorem wrFpflagsClearsTheNamedFlags : Obligations.WrFpflagsClearsTheNamedFlags := fun v s =>
  ⟨clearFlags s.fpflags v, decode_encode (i := .wrFpflags v) rfl, exec_wrFpflags v s,
    fun _ hk => getLsbD_clearFlags _ v hk⟩

/-- The byte offset of a row of R106's table is in that table. -/
theorem isWriteAddr_of_unlisted {a : WordAddr} (h : 4 * a.toNat ∉ Config.writeOffsets) : isWriteAddr a = false := by
  simp only [isWriteAddr, List.contains_eq_mem, decide_eq_false_iff_not, List.mem_map, not_exists, not_and]
  rintro off hoff rfl
  have haligned : 4 * (wordAddr off).toNat = off := by
    revert off
    decide
  exact h (haligned.symm ▸ hoff)

/-- Settles O11: an unlisted offset is no row's address, so the BUS decoder ignores the write. -/
theorem unlistedWritesAreIgnored : Obligations.UnlistedWritesAreIgnored := fun a v s =>
  ⟨exec_wrIgnored a v s, fun h =>
    decode_encode (i := .wrIgnored a v) (by simp [Instr.wellFormed, isWriteAddr_of_unlisted h])⟩

/-! ## Commands (R136 to R140, R144 to R150) -/

theorem exec_commandInstr_of_idle (hidle : s.phase = .idle) (c : Command) :
    exec (commandInstr c) s = .next (commandEffect c s) := by
  rw [exec_commandInstr, runCommand_of_idle hidle]

theorem exec_commandInstr_of_running (hrun : s.phase = .running) (c : Command) :
    exec (commandInstr c) s = .next (withErrorRecorded 4#4 s) := by
  rw [exec_commandInstr, runCommand, whenIdle_of_busy _ _ ((busy_iff s).mpr hrun)]
  rfl

/-- With `BYTE_COUNT = 0` no sample is shown. -/
theorem readWord_sample_of_empty (hcount : s.byteCount = 0#32) {i : Nat} (hi : i < 256) :
    s.readWord (wordAddr (0x0400 + 4 * i)) = 0#32 := by
  rw [readWord_wordAddr s (by omega) (by omega), readOffset_sample s hi, sampleWindow_eq, hcount]
  simp

/-- Settles O19: the three commands' effects while IDLE, and one rejection for every command while BUSY. -/
theorem nopClearStartHaveTheirEffects : Obligations.NopClearStartHaveTheirEffects := by
  refine ⟨decode_commandAccess .nop, decode_commandAccess .clear, decode_commandAccess .start, fun s =>
    ⟨fun hidle => ⟨?nop, ?clear, ?window, ?start⟩, fun hrun => ?busy⟩⟩
  case nop => exact exec_commandInstr_of_idle hidle .nop
  case clear => exact exec_commandInstr_of_idle hidle .clear
  case window => exact fun i hi => readWord_sample_of_empty rfl hi
  case start => exact exec_commandInstr_of_idle hidle .start
  case busy =>
    simp only [List.forall_mem_cons, List.not_mem_nil, false_imp_iff, implies_true, and_true]
    exact ⟨exec_commandInstr_of_running hrun .nop, exec_commandInstr_of_running hrun .clear,
      exec_commandInstr_of_running hrun .start⟩

/-- Settles O20: each row is the FPOP of its operator, which an IDLE block accepts. -/
theorem fpopWritesResultAndOrsFlags : Obligations.FpopWritesResultAndOrsFlags := by
  intro s hidle
  have hfpop (f : FpSel) : exec (commandInstr (.fpop f)) s = .next (fpop f s) :=
    exec_commandInstr_of_idle hidle (.fpop f)
  exact ⟨hfpop .fadd, hfpop .fsub, hfpop .fmul, hfpop .fdiv, hfpop .fsqrt, hfpop .fmag, hfpop .fclamp⟩

/-! ## FEED_B (R141, R142) -/

theorem exec_feedB_of_idle (hidle : s.phase = .idle) (v : Word) :
    exec (.feedB v) s = .next (feedByte (v.extractLsb 7 0) s) := by
  rw [exec_feedB, whenIdle_of_idle _ _ ((not_busy_iff s).mpr hidle)]
  rfl

/-- A feed while BUSY records code 5 and feeds nothing. -/
theorem whenIdle_feedBusy_of_running (hrun : s.phase = .running) (f : State → State) :
    whenIdle .feedBusy f s = withErrorRecorded 5#4 s :=
  whenIdle_of_busy _ _ ((busy_iff s).mpr hrun)

/-- Settles O31: the rejection while BUSY, and the four cases of `feedByte` while IDLE. -/
theorem feedBAppendsOneByte : Obligations.FeedBAppendsOneByte := by
  refine fun v s => ⟨decode_encode (i := .feedB v) rfl, fun hrun => ?busy, fun hidle hfull => ?saturated,
    fun hidle hcount => ⟨fun hpos => ?pending, fun hpos hin => ?store, fun hpos hbeyond => ?beyond⟩⟩
  case busy => rw [exec_feedB, whenIdle_feedBusy_of_running hrun]
  case saturated => rw [exec_feedB_of_idle hidle, feedByte_saturated _ hfull]
  case pending => rw [exec_feedB_of_idle hidle, feedByte_partial _ hcount hpos]
  case store => rw [exec_feedB_of_idle hidle, feedByte_store _ hcount hpos hin]; rfl
  case beyond => rw [exec_feedB_of_idle hidle, feedByte_beyond _ hcount hpos hbeyond]

/-! ## FEED_W (R76, R143) -/

/-- The second rejection of a feed leaves what the first recorded (R270). -/
theorem raiseError_raiseError (c d : ErrorCode) (s : State) : raiseError d (raiseError c s) = raiseError c s := by
  simp [raiseError]

/-- Several bytes are fed, or rejected, as the first byte and then the others. -/
theorem whenIdle_feedBytes_cons (b : Byte) (bs : List Byte) (s : State) :
    whenIdle .feedBusy (feedBytes (b :: bs)) s =
      whenIdle .feedBusy (feedBytes bs) (whenIdle .feedBusy (feedByte b) s) := by
  cases hbusy : s.busy with
  | true =>
    have hraised : (raiseError .feedBusy s).busy = true := hbusy
    rw [whenIdle_of_busy _ _ hbusy, whenIdle_of_busy _ _ hbusy, whenIdle_of_busy _ _ hraised, raiseError_raiseError]
  | false =>
    have hfed : (feedByte b s).busy = false := by rw [State.busy, feedByte_phase]; exact hbusy
    rw [whenIdle_of_idle _ _ hbusy, whenIdle_of_idle _ _ hbusy, whenIdle_of_idle _ _ hfed, feedBytes_cons]

/-- FEED_B of a byte feeds that byte. -/
theorem exec_feedB_setWidth (b : Byte) (s : State) :
    exec (.feedB (b.setWidth 32)) s = .next (whenIdle .feedBusy (feedByte b) s) := by
  rw [exec_feedB, feedByteOf_setWidth]

/-- FEED_W's bytes, fed one after the other. -/
theorem exec_feedW_eq_four_feeds (v : Word) (s : State) :
    exec (.feedW v) s = .next (whenIdle .feedBusy (feedByte (v.extractLsb 31 24))
      (whenIdle .feedBusy (feedByte (v.extractLsb 23 16))
        (whenIdle .feedBusy (feedByte (v.extractLsb 15 8))
          (whenIdle .feedBusy (feedByte (v.extractLsb 7 0)) s)))) := by
  rw [exec_feedW, feedBytesOf, whenIdle_feedBytes_cons, whenIdle_feedBytes_cons, whenIdle_feedBytes_cons]
  rfl

theorem asm_filled (asm : Vector Byte 3) (b0 b1 b2 : Byte) :
    ((asm.setIfInBounds 0 b0).setIfInBounds 1 b1).setIfInBounds 2 b2 = #v[b0, b1, b2] := by
  refine Vector.ext fun j hj => ?_
  interval_cases j <;> simp

/-- Three bytes from a word boundary fill ASM. -/
theorem feedBytes_three_of_aligned (b0 b1 b2 : Byte) (hpos : s.byteCount.toNat % 4 = 0)
    (hin : s.byteCount.toNat < 1024) :
    feedBytes [b0, b1, b2] s = { s with asm := #v[b0, b1, b2], byteCount := s.byteCount + 3#32 } := by
  have h1 : (s.byteCount + 1#32).toNat = s.byteCount.toNat + 1 := byteCount_succ (by bv_omega)
  have h2 : (s.byteCount + 1#32 + 1#32).toNat = s.byteCount.toNat + 2 := by
    rw [byteCount_succ (by bv_omega), h1]
  have hsum : s.byteCount + 1#32 + 1#32 + 1#32 = s.byteCount + 3#32 := by bv_omega
  have hpos1 : (s.byteCount + 1#32).toNat % 4 = 1 := by omega
  have hpos2 : (s.byteCount + 1#32 + 1#32).toNat % 4 = 2 := by omega
  simp only [feedBytes_cons, feedBytes_nil]
  rw [feedByte_partial b0 (by bv_omega) (by omega), feedByte_partial b1 (by bv_omega) (by dsimp only; omega),
    feedByte_partial b2 (by bv_omega) (by dsimp only; omega)]
  simp only [hpos, hpos1, hpos2, hsum, asm_filled]

/-- The bytes of a word, low byte first, are the word (R75). -/
theorem sampleWord_bytes (v : Word) :
    sampleWord (v.extractLsb 7 0) (v.extractLsb 15 8) (v.extractLsb 23 16) (v.extractLsb 31 24) = v := by
  refine BitVec.eq_of_toNat_eq ?_
  have := v.isLt
  simp only [sampleWord, toNat_append_eq_add, BitVec.extractLsb_toNat, Nat.shiftRight_eq_div_pow]
  omega

/-- On a word-aligned stream inside SAMPLE the four bytes of a word are stored as that word. -/
theorem feedBytesOf_of_aligned (v : Word) (hpos : s.byteCount.toNat % 4 = 0) (hin : s.byteCount.toNat < 1024) :
    feedBytes (feedBytesOf v) s =
      { s with sample := writeAt s.sample (s.byteCount.toNat / 4) v
               asm := #v[v.extractLsb 7 0, v.extractLsb 15 8, v.extractLsb 23 16]
               byteCount := s.byteCount + 4#32 } := by
  have hcount : (s.byteCount + 3#32).toNat = s.byteCount.toNat + 3 := by bv_omega
  have hword : (s.byteCount + 3#32).toNat / 4 = s.byteCount.toNat / 4 := by omega
  calc feedBytes (feedBytesOf v) s
      = feedByte (v.extractLsb 31 24) (feedBytes [v.extractLsb 7 0, v.extractLsb 15 8, v.extractLsb 23 16] s) := rfl
    _ = _ := by
      rw [feedBytes_three_of_aligned _ _ _ hpos hin,
        feedByte_store _ (by bv_omega) (by dsimp only; omega) (by dsimp only; omega)]
      simp only [hword, BitVec.add_assoc]
      congr 2
      exact sampleWord_bytes v

/-- Settles O32: the four bytes are fed or rejected one by one, and from a word boundary they are one sample. -/
theorem feedWIsFourFeedB : Obligations.FeedWIsFourFeedB := by
  refine fun v s => ⟨decode_encode (i := .feedW v) rfl, fun hrun => ?busy, ⟨_, _, _, _, exec_feedB_setWidth _ _,
    exec_feedB_setWidth _ _, exec_feedB_setWidth _ _, exec_feedB_setWidth _ _, exec_feedW_eq_four_feeds v s⟩,
    fun hidle hpos hin => ?aligned⟩
  case busy => rw [exec_feedW, whenIdle_feedBusy_of_running hrun]
  case aligned =>
    rw [exec_feedW, whenIdle_of_idle _ _ ((not_busy_iff s).mpr hidle), feedBytesOf_of_aligned v hpos hin]

end Sys2Proof.Machine
end

section
/-! PROOFS. The magnitude calculator (R149, R181): its squares see no sign, only a signalling NaN operand raises NV, and
the root of a nonzero sum is nonzero. -/

namespace Sys2Proof.Machine

/-! ## The sign of a square's operand -/

theorem fpExp_flipSign (w : Word) : fpExp (flipSign w) = fpExp w := by
  simp [fpExp, flipSign, BitVec.extractLsb_xor]

theorem fpFrac_flipSign (w : Word) : fpFrac (flipSign w) = fpFrac w := by
  simp [fpFrac, flipSign, BitVec.extractLsb_xor]

/-- A square is computed from the exponent and the fraction; the two signs cancel. -/
theorem fmul32_flipSign_self (a : Word) : fmul32 (flipSign a) (flipSign a) = fmul32 a a := by
  simp only [fmul32, isNaN, isSNaN, isInf, isZero, significand, unitExp, fpExp_flipSign, fpFrac_flipSign, Bool.xor_self]

/-! ## NV (R173) -/

/-- NX and UF, with which a rounding answers below overflow, are not NV (R172). -/
theorem not_nv_roundingFlags (inexact tiny : Bool) :
    (flagIf inexact flagNX ||| flagIf (tiny && inexact) flagUF).getLsbD 4 = false := by
  cases inexact <;> cases tiny <;> decide

theorem not_nv_finishRound (s : Bool) (N : Nat) (q : Int) (inexact tiny : Bool) :
    (finishRound s N q inexact tiny).flags.getLsbD 4 = false := by
  have hoverflow : (flagOF ||| flagNX).getLsbD 4 = false := by decide
  unfold finishRound
  generalize (if N = 2 ^ 24 then q + 1 else q) = q', (if N = 2 ^ 24 then 2 ^ 23 else N) = N'
  dsimp only
  split
  · exact hoverflow
  · split <;> exact not_nv_roundingFlags inexact tiny

/-- Rounding raises no NV. -/
theorem not_nv_roundFp (s : Bool) (m : Magnitude) : (roundFp s m).flags.getLsbD 4 = false := by
  unfold roundFp
  split
  · exact BitVec.getLsbD_zero
  · exact not_nv_finishRound _ _ _ _ _

theorem nv_nanResult (signalling : Bool) : (nanResult signalling).flags.getLsbD 4 = signalling := by
  cases signalling <;> rfl

theorem isSNaN_of_not_isNaN {a : Word} (h : isNaN a = false) : isSNaN a = false := by
  rw [isSNaN, h, Bool.false_and]

theorem isZero_of_isInf {a : Word} (h : isInf a = true) : isZero a = false := by
  simp_all [isInf, isZero]

/-- A magnitude is no signalling NaN: at most `+inf`, or the canonical NaN. -/
theorem isSNaN_of_isMagnitude {a : Word} (h : isMagnitude a = true) : isSNaN a = false := by
  simp only [isMagnitude, Bool.or_eq_true, decide_eq_true_eq, beq_iff_eq] at h
  obtain hle | rfl := h
  · refine isSNaN_of_not_isNaN ?_
    rw [isNaN, Bool.and_eq_false_iff, beq_eq_false_iff_ne, bne_eq_false_iff_eq]
    rw [BitVec.le_def] at hle
    simp only [ne_eq, ← BitVec.toNat_inj, fpExp, fpFrac, BitVec.extractLsb_toNat, Nat.shiftRight_eq_div_pow,
      BitVec.toNat_ofNat] at hle ⊢
    omega
  · decide

/-- A square raises NV exactly for a signalling NaN. -/
theorem nv_fmul32_self (a : Word) : (fmul32 a a).flags.getLsbD 4 = isSNaN a := by
  unfold fmul32
  simp only [Bool.or_self]
  split_ifs with hnan hinf hzero
  · exact nv_nanResult _
  · rw [isZero_of_isInf hinf] at hzero
    cases hzero
  · rw [isSNaN_of_not_isNaN (Bool.eq_false_of_not_eq_true hnan), BitVec.getLsbD_zero]
  · rw [isSNaN_of_not_isNaN (Bool.eq_false_of_not_eq_true hnan), not_nv_roundFp]

/-- A sum of magnitudes raises no NV: neither is a signalling NaN, and two infinities have one sign. -/
theorem not_nv_fadd32 {a b : Word} (ha : isMagnitude a = true) (hb : isMagnitude b = true) :
    (fadd32 a b).flags.getLsbD 4 = false := by
  unfold fadd32
  simp only [fpSign_of_isMagnitude ha, fpSign_of_isMagnitude hb, isSNaN_of_isMagnitude ha, isSNaN_of_isMagnitude hb]
  split_ifs with hnan hopp hinfa hinfb hzero
  · exact nv_nanResult _
  · simp at hopp
  · exact BitVec.getLsbD_zero
  · exact BitVec.getLsbD_zero
  · exact BitVec.getLsbD_zero
  · exact not_nv_roundFp _ _

/-- The root of a magnitude raises no NV. -/
theorem not_nv_fsqrt32 {a : Word} (ha : isMagnitude a = true) : (fsqrt32 a).flags.getLsbD 4 = false := by
  unfold fsqrt32
  simp only [fpSign_of_isMagnitude ha, isSNaN_of_isMagnitude ha, Bool.false_eq_true, if_false]
  split_ifs
  · exact nv_nanResult _
  · exact BitVec.getLsbD_zero
  · exact BitVec.getLsbD_zero
  · exact not_nv_roundFp _ _

theorem nv_fmag32 (a b : Word) : (fmag32 a b).flags.getLsbD 4 = (isSNaN a || isSNaN b) := by
  have hp := isMagnitude_fmul32_self a
  have hq := isMagnitude_fmul32_self b
  simp only [fmag32, BitVec.getLsbD_or, nv_fmul32_self, not_nv_fadd32 hp hq,
    not_nv_fsqrt32 (isMagnitude_fadd32 hp hq), Bool.or_false]

/-! ## When the root is `+0` -/

/-- Rounding to an integer does not go below the floor. -/
theorem div_le_rneShift (n d : Nat) (sticky : Bool) : n / 2 ^ d ≤ rneShift n d sticky := by
  unfold rneShift
  dsimp only
  split <;> omega

/-- A magnitude of at least one unit does not round to 0 units. -/
theorem rneAt_pos {m : Magnitude} (hn : m.n ≠ 0) {q : Int} (hq : q ≤ magLog2 m) : 0 < rneAt m q := by
  unfold rneAt
  split
  · positivity
  next hlt =>
    have hd : (q - m.x).toNat ≤ m.n.log2 := by unfold magLog2 at hq; omega
    have hpow : 2 ^ (q - m.x).toNat ≤ m.n := (Nat.pow_le_pow_right (by norm_num) hd).trans (Nat.log2_self_le hn)
    exact (Nat.div_pos hpow (by positivity)).trans_le (div_le_rneShift _ _ _)

/-- A word with a nonzero exponent or fraction field is not `+0`. -/
theorem packWord_ne_zero (s : Bool) {e f : Nat} (h : e % 2 ^ 8 ≠ 0 ∨ f % 2 ^ 23 ≠ 0) : packWord s e f ≠ 0#32 := by
  simp only [ne_eq, ← BitVec.toNat_inj, packWord, toNat_append_eq_add, BitVec.toNat_ofNat]
  omega

/-- From the least unit `2^-149` on, a nonzero `N` is packed as a nonzero word. -/
theorem finishRound_ne_zero (s : Bool) {N : Nat} (hN : 0 < N) {q : Int} (hq : -149 ≤ q) (inexact tiny : Bool) :
    (finishRound s N q inexact tiny).w ≠ 0#32 := by
  have hN' : 0 < if N = 2 ^ 24 then 2 ^ 23 else N := by split <;> omega
  have hq' : -149 ≤ if N = 2 ^ 24 then q + 1 else q := by split <;> omega
  unfold finishRound
  generalize (if N = 2 ^ 24 then q + 1 else q) = q', (if N = 2 ^ 24 then 2 ^ 23 else N) = N' at hN' hq' ⊢
  dsimp only
  split
  · exact packWord_ne_zero s (.inl (by decide))
  · split
    · exact packWord_ne_zero s (.inr (by omega))
    · exact packWord_ne_zero s (.inl (by omega))

/-- A magnitude of at least `2^-149` does not round to `+0`. -/
theorem roundFp_ne_zero (s : Bool) {m : Magnitude} (hn : m.n ≠ 0) (hlog : -149 ≤ magLog2 m) :
    (roundFp s m).w ≠ 0#32 := by
  unfold roundFp
  rw [if_neg (fun h => hn h.1)]
  exact finishRound_ne_zero s (rneAt_pos hn (by omega)) (by omega) _ _

theorem unitExp_ge (w : Word) : -149 ≤ unitExp w := by
  unfold unitExp
  split
  · rfl
  next hne =>
    have : (fpExp w).toNat ≠ 0 := fun h => hne (BitVec.eq_of_toNat_eq h)
    omega

/-- The root of a nonzero significand has a nonzero integer part. -/
theorem rootMagnitude_n_ne_zero {a : Word} (h : isZero a = false) : (rootMagnitude a).n ≠ 0 := by
  have hsig : significand a ≠ 0 := fun h0 => by simp [(significand_eq_zero_iff a).mp h0] at h
  have hrad : 0 < radicand a := by unfold radicand; positivity
  obtain ⟨-, hupper⟩ := rootMagnitude_bracket a
  intro hroot
  rw [hroot] at hupper
  omega

/-- A root is far above the least unit: its exponent is half its operand's. -/
theorem magLog2_rootMagnitude_ge (a : Word) : -149 ≤ magLog2 (rootMagnitude a) := by
  have := unitExp_ge a
  simp only [magLog2, rootMagnitude]
  omega

/-- The root is `+0` for `+0` only. -/
theorem fsqrt32_eq_zero_iff (a : Word) : (fsqrt32 a).w = 0x00000000#32 ↔ a = 0x00000000#32 := by
  have hnotNaN : isNaN 0x00000000#32 = false := by decide
  have hisZero : isZero 0x00000000#32 = true := by decide
  have hqNaN : qNaN ≠ 0x00000000#32 := by decide
  unfold fsqrt32
  split_ifs with hnan hzero hsign hinf
  · exact iff_of_false hqNaN (by rintro rfl; simp [hnotNaN] at hnan)
  · exact Iff.rfl
  · exact iff_of_false hqNaN (by rintro rfl; exact hzero hisZero)
  · exact Iff.rfl
  · have hroot := roundFp_ne_zero false (rootMagnitude_n_ne_zero (Bool.eq_false_of_not_eq_true hzero))
      (magLog2_rootMagnitude_ge a)
    exact iff_of_false hroot (by rintro rfl; exact hzero hisZero)

/-- Settles O29: the four steps by definition; the squares hide the signs, and what each step does with magnitudes
gives the range, the zero and NV. -/
theorem magnitudeIgnoresSignsAndIsNeverNegative : Obligations.MagnitudeIgnoresSignsAndIsNeverNegative := fun a b =>
  ⟨rfl, fsqrt32_eq_zero_iff _, by simp only [fmag32, fmul32_flipSign_self], by simp only [fmag32, fmul32_flipSign_self],
    isMagnitude_fmag32 a b, nv_fmag32 a b⟩

end Sys2Proof.Machine
end

section
/-! PROOFS. The value of a word: sign, significand and unit (R170, R171). -/

namespace Sys2Proof.Machine

/-! ## Signs -/

/-- The factor that a sign bit stands for in R170: 1 or -1. -/
def signFactor (s : Bool) : ℝ := if s then -1 else 1

@[simp] theorem signFactor_false : signFactor false = 1 := rfl
@[simp] theorem signFactor_true : signFactor true = -1 := rfl

theorem signFactor_xor (s t : Bool) : signFactor (s ^^ t) = signFactor s * signFactor t := by
  cases s <;> cases t <;> simp

@[simp] theorem signFactor_inv (s : Bool) : (signFactor s)⁻¹ = signFactor s := by
  cases s <;> simp

@[simp] theorem abs_signFactor (s : Bool) : |signFactor s| = 1 := by
  cases s <;> simp

theorem abs_signFactor_mul (s : Bool) (x : ℝ) : |signFactor s * x| = |x| := by
  rw [abs_mul, abs_signFactor, one_mul]

/-- A distance between two reals is that between their products with a sign. -/
theorem abs_signFactor_mul_sub (s : Bool) (x y : ℝ) : |signFactor s * x - y| = |x - signFactor s * y| := by
  cases s
  · simp
  · rw [signFactor_true, abs_sub_comm]; congr 1; ring

theorem signFactor_mul_self_mul (s : Bool) (x : ℝ) : signFactor s * (signFactor s * x) = x := by
  cases s <;> simp

theorem signFactor_mul_left_inj (s : Bool) {x y : ℝ} : signFactor s * x = signFactor s * y ↔ x = y := by
  cases s <;> simp

/-- A positive value carries its sign factor. -/
theorem signFactor_mul_neg_iff (s : Bool) {x : ℝ} (hx : 0 < x) : signFactor s * x < 0 ↔ s = true := by
  cases s <;> simp [hx, hx.le]

/-! ## Fields -/

/-- A word is its sign, exponent and fraction fields (R170). -/
theorem toNat_eq_fields (w : Word) :
    w.toNat = (fpSign w).toNat * 2 ^ 31 + (fpExp w).toNat * 2 ^ 23 + (fpFrac w).toNat := by
  have := w.isLt
  simp only [fpSign, fpExp, fpFrac, BitVec.extractLsb_toNat, BitVec.getLsbD, Nat.testBit_eq_decide_div_mod_eq,
    Nat.shiftRight_eq_div_pow]
  rcases Nat.mod_two_eq_zero_or_one (w.toNat / 2 ^ 31) with h | h <;>
    rw [h] <;> simp <;> omega

theorem eq_packWord (w : Word) : w = packWord (fpSign w) (fpExp w).toNat (fpFrac w).toNat :=
  BitVec.eq_of_toNat_eq (by rw [packWord_toNat _ (fpExp w).isLt (fpFrac w).isLt, toNat_eq_fields])

theorem isFinite_iff (w : Word) : isFinite w = true ↔ (fpExp w).toNat < 255 := by
  have := (fpExp w).isLt
  simp only [isFinite, bne_iff_ne, ne_eq, ← BitVec.toNat_inj, BitVec.toNat_ofNat]
  omega

theorem eq_zeroWord_of_isZero {w : Word} (h : isZero w = true) : w = zeroWord (fpSign w) := by
  simp only [isZero, Bool.and_eq_true, beq_iff_eq] at h
  obtain ⟨hexp, hfrac⟩ := h
  simpa [zeroWord, hexp, hfrac] using eq_packWord w

theorem eq_infWord_of_isInf {w : Word} (h : isInf w = true) : w = infWord (fpSign w) := by
  simp only [isInf, Bool.and_eq_true, beq_iff_eq] at h
  obtain ⟨hexp, hfrac⟩ := h
  simpa [infWord, hexp, hfrac] using eq_packWord w

/-- The sign bit is the top bit of the word, whatever is packed below it. -/
@[simp] theorem fpSign_packWord_eq (s : Bool) (e f : Nat) : fpSign (packWord s e f) = s := by
  rw [fpSign, packWord, bit, BitVec.getLsbD_append, BitVec.getLsbD_append]
  simp

@[simp] theorem fpSign_infWord (s : Bool) : fpSign (infWord s) = s := fpSign_packWord_eq _ _ _

@[simp] theorem fpSign_zeroWord (s : Bool) : fpSign (zeroWord s) = s := fpSign_packWord_eq _ _ _

@[simp] theorem fpSign_flipSign (w : Word) : fpSign (flipSign w) = !fpSign w := by
  simp [fpSign, flipSign]

/-! ## Values -/

theorem val_eq (w : Word) :
    ((val w : ℚ) : ℝ) = signFactor (fpSign w) * (significand w * (2 : ℝ) ^ unitExp w) := by
  cases h : fpSign w <;> simp [val, h]

/-- A finite value in units of any power of two up to its own unit. -/
theorem val_eq_alignedInt (w : Word) {x : Int} (hx : x ≤ unitExp w) :
    ((val w : ℚ) : ℝ) = (alignedInt w x : ℝ) * (2 : ℝ) ^ x := by
  have hpow : (2 : ℝ) ^ unitExp w = (2 : ℝ) ^ (unitExp w - x).toNat * (2 : ℝ) ^ x := by
    rw [← zpow_natCast, ← zpow_add₀ two_ne_zero]; congr 1; omega
  rw [val_eq, hpow]
  cases h : fpSign w <;> simp [alignedInt, h, mul_assoc]

theorem abs_alignedInt_unitExp_lt (w : Word) : |alignedInt w (unitExp w)| < 2 ^ 24 := by
  have := significand_lt w
  simp only [alignedInt, sub_self]
  split <;> simp <;> omega

theorem unitExp_flipSign (w : Word) : unitExp (flipSign w) = unitExp w := by
  simp only [unitExp, fpExp_flipSign]

theorem significand_flipSign (w : Word) : significand (flipSign w) = significand w := by
  simp only [significand, fpExp_flipSign, fpFrac_flipSign]

theorem val_flipSign (w : Word) : val (flipSign w) = -val w := by
  cases h : fpSign w <;> simp [val, h, unitExp_flipSign, significand_flipSign]

theorem isFinite_flipSign (w : Word) : isFinite (flipSign w) = isFinite w := by
  simp only [isFinite, fpExp_flipSign]

theorem isNaN_of_isFinite {w : Word} (h : isFinite w = true) : isNaN w = false := by
  simp_all [isFinite, isNaN]

theorem isInf_of_isFinite {w : Word} (h : isFinite w = true) : isInf w = false := by
  simp_all [isFinite, isInf]

end Sys2Proof.Machine
end

section
/-! PROOFS. Rounding a magnitude to units is rounding the real it stands for to the nearest integer, ties to even
(R172). -/

namespace Sys2Proof.Machine

/-! ## Nearest integers -/

theorem IsRne.lower {x : ℝ} {N : Nat} (h : IsRne x N) : x - 1 / 2 ≤ N := by
  linarith [(abs_le.mp h.1).1]

theorem IsRne.upper {x : ℝ} {N : Nat} (h : IsRne x N) : N ≤ x + 1 / 2 := by
  linarith [(abs_le.mp h.1).2]

/-- No other integer is nearer than the nearest, and one at the same distance makes it a tie. -/
theorem IsRne.le_abs_sub {x : ℝ} {N : Nat} (h : IsRne x N) (k : ℤ) :
    |(N : ℝ) - x| ≤ |(k : ℝ) - x| ∧ (|(k : ℝ) - x| = |(N : ℝ) - x| → k ≠ N → N % 2 = 0) := by
  obtain rfl | hne := eq_or_ne k N
  · simp
  have hapart : (1 : ℝ) ≤ |(k : ℝ) - N| := by exact_mod_cast Int.one_le_abs (sub_ne_zero.mpr hne)
  have htriangle : |(k : ℝ) - N| ≤ |(k : ℝ) - x| + |(N : ℝ) - x| := by
    rw [abs_sub_comm (N : ℝ) x]
    exact abs_sub_le _ _ _
  have hhalf := h.1
  exact ⟨by linarith, fun heq _ => h.2 (by linarith)⟩

theorem IsRne.unique {x : ℝ} {N N' : Nat} (h : IsRne x N) (h' : IsRne x N') : N = N' := by
  by_contra hne
  have hle := (h.le_abs_sub N').1
  have hle' := (h'.le_abs_sub N).1
  have heq := le_antisymm hle' hle
  have heven := (h.le_abs_sub N').2 (by exact_mod_cast heq) (by exact_mod_cast Ne.symm hne)
  have heven' := (h'.le_abs_sub N).2 (by exact_mod_cast heq.symm) (by exact_mod_cast hne)
  have hlower := h.lower
  have hupper := h.upper
  have hlower' := h'.lower
  have hupper' := h'.upper
  have h1 : N ≤ N' + 1 := by exact_mod_cast (by linarith : (N : ℝ) ≤ N' + 1)
  have h2 : N' ≤ N + 1 := by exact_mod_cast (by linarith : (N' : ℝ) ≤ N + 1)
  omega

/-- The nearest integer of `y / D`, from the distance in half units of `D`. -/
theorem isRne_div {y D : ℝ} (hD : 0 < D) {N : Nat} (hnear : |2 * (N * D - y)| ≤ D)
    (htie : |2 * (N * D - y)| = D → N % 2 = 0) : IsRne (y / D) N := by
  have hscale : |(N : ℝ) - y / D| = |2 * (N * D - y)| / (2 * D) := by
    rw [eq_div_iff (by positivity), ← abs_of_pos (show 0 < 2 * D by positivity), ← abs_mul]
    congr 1
    field_simp
  rw [IsRne, hscale, div_le_div_iff₀ (by positivity) two_pos, div_eq_div_iff (by positivity) two_ne_zero]
  exact ⟨by linarith, fun h => htie (by linarith)⟩

/-! ## The real a magnitude stands for -/

/-- `y` is `n`, or with the sticky bit strictly between `n` and `n + 1`. -/
def InUnit (n : Nat) (sticky : Bool) (y : ℝ) : Prop :=
  if sticky then (n : ℝ) < y ∧ y < n + 1 else y = n

theorem inUnit_true {n : Nat} {y : ℝ} : InUnit n true y ↔ (n : ℝ) < y ∧ y < n + 1 := Iff.rfl

theorem inUnit_false {n : Nat} {y : ℝ} : InUnit n false y ↔ y = n := Iff.rfl

/-- The magnitude stands for the real `r`, and a sticky one has enough bits that rounding to 24 bits drops some. -/
structure Magnitude.Holds (m : Magnitude) (r : ℝ) : Prop where
  inUnit : InUnit m.n m.sticky (r / 2 ^ m.x)
  wide : m.sticky = true → 2 ^ 25 ≤ m.n

theorem InUnit.bounds {n : Nat} {sticky : Bool} {y : ℝ} (h : InUnit n sticky y) : (n : ℝ) ≤ y ∧ y < n + 1 := by
  cases sticky
  · rw [inUnit_false] at h
    constructor <;> linarith
  · exact ⟨h.1.le, h.2⟩

/-- More than half a unit goes up, less goes down, and a tie, which a sticky bit turns into more, goes to the even
integer. -/
theorem isRne_rneShift {n d : Nat} {sticky : Bool} {y : ℝ} (h : InUnit n sticky y) (hd : sticky = true → 0 < d) :
    IsRne (y / 2 ^ d) (rneShift n d sticky) := by
  have hn : (n : ℝ) = (n / 2 ^ d : ℕ) * 2 ^ d + (n % 2 ^ d : ℕ) := by
    exact_mod_cast (Nat.div_add_mod' n (2 ^ d)).symm
  have hrem : ((n % 2 ^ d : ℕ) : ℝ) + 1 ≤ 2 ^ d := by exact_mod_cast Nat.mod_lt n (Nat.two_pow_pos d)
  have hnonneg : (0 : ℝ) ≤ (n % 2 ^ d : ℕ) := Nat.cast_nonneg _
  obtain ⟨hlo, hhi⟩ := h.bounds
  unfold rneShift
  dsimp only
  split
  case isTrue hup =>
    have hhalf : (2 : ℝ) ^ d ≤ 2 * (n % 2 ^ d : ℕ) := by exact_mod_cast (by omega : 2 ^ d ≤ 2 * (n % 2 ^ d))
    refine isRne_div (by positivity) (abs_le.mpr ?_) fun htie => ?_
    · push_cast; constructor <;> linarith
    · rw [abs_of_nonneg (by push_cast; linarith)] at htie
      push_cast at htie
      have hy : y = n := by linarith
      have htied : 2 * (n % 2 ^ d) = 2 ^ d := by
        exact_mod_cast (by linarith : (2 : ℝ) * (n % 2 ^ d : ℕ) = 2 ^ d)
      cases sticky
      · simp at hup; omega
      · exact absurd hy h.1.ne'
  case isFalse hdown =>
    cases sticky
    · rw [inUnit_false] at h
      have hhalf : 2 * (n % 2 ^ d : ℕ) ≤ (2 : ℝ) ^ d := by exact_mod_cast (by omega : 2 * (n % 2 ^ d) ≤ 2 ^ d)
      refine isRne_div (by positivity) (abs_le.mpr ?_) fun htie => ?_
      · constructor <;> linarith
      · rw [abs_of_nonpos (by linarith)] at htie
        have htied : 2 * (n % 2 ^ d) = 2 ^ d := by
          exact_mod_cast (by linarith : (2 : ℝ) * (n % 2 ^ d : ℕ) = 2 ^ d)
        simp at hdown; omega
    · have heven : 2 ^ d = 2 * 2 ^ (d - 1) := by rw [← Nat.pow_succ', Nat.succ_eq_add_one, Nat.sub_add_cancel (hd rfl)]
      have hhalf : 2 * (n % 2 ^ d : ℕ) + 2 ≤ (2 : ℝ) ^ d := by
        exact_mod_cast (by simp at hdown; omega : 2 * (n % 2 ^ d) + 2 ≤ 2 ^ d)
      have hlt : |2 * ((n / 2 ^ d : ℕ) * 2 ^ d - y)| < 2 ^ d := abs_lt.mpr (by constructor <;> linarith)
      exact isRne_div (by positivity) hlt.le fun htie => absurd htie hlt.ne

section
variable {m : Magnitude} {r : ℝ} {q : Int}

theorem Magnitude.Holds.bounds (h : m.Holds r) : m.n * (2 : ℝ) ^ m.x ≤ r ∧ r < (m.n + 1) * (2 : ℝ) ^ m.x := by
  have hx : (0 : ℝ) < 2 ^ m.x := by positivity
  obtain ⟨hlo, hhi⟩ := h.inUnit.bounds
  exact ⟨(le_div_iff₀ hx).mp hlo, (div_lt_iff₀ hx).mp hhi⟩

theorem Magnitude.Holds.eq_of_not_sticky (h : m.Holds r) (hs : m.sticky = false) : r = m.n * (2 : ℝ) ^ m.x := by
  have hunit := h.inUnit
  rw [hs, inUnit_false, div_eq_iff (by positivity)] at hunit
  exact hunit

/-- `2^q` in the magnitude's own units, for a coarser unit. -/
theorem two_zpow_eq_pow_mul {x q : Int} (h : x ≤ q) : (2 : ℝ) ^ q = 2 ^ (q - x).toNat * 2 ^ x := by
  rw [← zpow_natCast, ← zpow_add₀ two_ne_zero]
  congr 1
  omega

/-- `rneAt` is RNE of R172. A sticky magnitude has to be rounded to a coarser unit than its own. -/
theorem isRne_rneAt (h : m.Holds r) (hq : m.sticky = true → m.x < q) : IsRne (r / 2 ^ q) (rneAt m q) := by
  unfold rneAt
  split
  case isTrue hle =>
    have hs : m.sticky = false := Bool.eq_false_of_not_eq_true fun hs => absurd (hq hs) (by omega)
    have hexact : r / 2 ^ q = (m.n * 2 ^ (m.x - q).toNat : ℕ) := by
      rw [h.eq_of_not_sticky hs, two_zpow_eq_pow_mul hle, div_eq_iff (by positivity)]
      push_cast
      ring
    simp [IsRne, hexact]
  case isFalse hlt =>
    rw [two_zpow_eq_pow_mul (not_le.mp hlt).le, mul_comm, ← div_div]
    exact isRne_rneShift h.inUnit fun hs => by have := hq hs; omega

theorem rneShift_mul_eq_iff (n d : Nat) : rneShift n d false * 2 ^ d = n ↔ n % 2 ^ d = 0 := by
  constructor
  · intro h
    rw [← h, Nat.mul_mod_left]
  · intro h
    have : 2 ^ d ≠ 0 := by positivity
    simp [rneShift, h, this.symm, Nat.div_mul_cancel (Nat.dvd_of_mod_eq_zero h)]

/-- `inexactAt` is the inexact condition of R172. -/
theorem inexactAt_iff (h : m.Holds r) (hq : m.sticky = true → m.x < q) :
    inexactAt m q = true ↔ (rneAt m q : ℝ) * 2 ^ q ≠ r := by
  cases hs : m.sticky
  case true =>
    have hunit := h.inUnit
    rw [hs, inUnit_true] at hunit
    refine iff_of_true (by simp [inexactAt, hs]) fun heq => ?_
    rw [← heq, two_zpow_eq_pow_mul (hq hs).le, ← mul_assoc, mul_div_cancel_right₀ _ (by positivity)] at hunit
    norm_cast at hunit
    omega
  case false =>
    have hr := h.eq_of_not_sticky hs
    by_cases hlt : m.x < q
    · have hx : (2 : ℝ) ^ m.x ≠ 0 := by positivity
      rw [inexactAt, rneAt, if_neg (not_le.mpr hlt), hr, two_zpow_eq_pow_mul hlt.le, ← mul_assoc, Ne,
        mul_left_inj' hx, hs]
      norm_cast
      rw [rneShift_mul_eq_iff]
      simp [hlt]
    · rw [inexactAt, rneAt, if_pos (not_lt.mp hlt), hr, two_zpow_eq_pow_mul (not_lt.mp hlt)]
      simp [hs, hlt, mul_assoc]

/-- `magLog2` is `floor(log2(m))` of R172. -/
theorem magLog2_bounds (h : m.Holds r) (hn : m.n ≠ 0) : (2 : ℝ) ^ magLog2 m ≤ r ∧ r < 2 ^ (magLog2 m + 1) := by
  have hx : (0 : ℝ) < 2 ^ m.x := by positivity
  obtain ⟨hlo, hhi⟩ := h.bounds
  have hlog : (2 : ℝ) ^ m.n.log2 ≤ m.n := by exact_mod_cast Nat.log2_self_le hn
  have hlog' : (m.n : ℝ) + 1 ≤ 2 ^ (m.n.log2 + 1) := by exact_mod_cast Nat.lt_log2_self
  have hpow : (2 : ℝ) ^ magLog2 m = 2 ^ m.n.log2 * 2 ^ m.x := by
    rw [magLog2, zpow_add₀ two_ne_zero, zpow_natCast]
  rw [zpow_add_one₀ two_ne_zero, hpow]
  exact ⟨(mul_le_mul_of_nonneg_right hlog hx.le).trans hlo,
    hhi.trans_le ((mul_le_mul_of_nonneg_right hlog' hx.le).trans_eq (by ring))⟩

/-- A sticky magnitude's own unit lies below that of its 24-bit rounding. -/
theorem x_lt_of_sticky (h : m.Holds r) (hs : m.sticky = true) : m.x < magLog2 m - 23 := by
  have hlog : 25 ≤ m.n.log2 := (Nat.le_log2 (by have := h.wide hs; omega)).mpr (h.wide hs)
  unfold magLog2
  omega

/-! ## Tininess -/

theorem belowPow2_iff (n : Nat) (a b : Int) : belowPow2 n a b = true ↔ (n : ℝ) * 2 ^ a < 2 ^ b := by
  have ha : (0 : ℝ) < 2 ^ a := by positivity
  unfold belowPow2
  split
  case isTrue hle =>
    rw [two_zpow_eq_pow_mul hle, mul_lt_mul_iff_left₀ ha, decide_eq_true_iff]
    exact_mod_cast Iff.rfl
  case isFalse hlt =>
    have hb : (2 : ℝ) ^ b < 2 ^ a := zpow_lt_zpow_right₀ one_lt_two (not_le.mp hlt)
    rw [beq_iff_eq]
    refine ⟨fun h => by rw [h, Nat.cast_zero, zero_mul]; positivity, fun h => ?_⟩
    by_contra hn
    have hone : (1 : ℝ) ≤ n := by exact_mod_cast Nat.one_le_iff_ne_zero.mpr hn
    nlinarith

theorem exponent_le_of_zpow_bounds {a b : Int} {r : ℝ} (ha : (2 : ℝ) ^ a ≤ r) (hb : r < 2 ^ (b + 1)) : a ≤ b :=
  Int.lt_add_one_iff.mp ((zpow_lt_zpow_iff_right₀ one_lt_two).mp (ha.trans_lt hb))

/-- The model's tininess test is R172's, since `E` and `Nu` are the only ones. -/
theorem belowPow2_iff_tinyAfterRounding (h : m.Holds r) (hn : m.n ≠ 0) :
    belowPow2 (rneAt m (magLog2 m - 23)) (magLog2 m - 23) (-126) = true ↔ TinyAfterRounding r := by
  obtain ⟨hlo, hhi⟩ := magLog2_bounds h hn
  have habs : |r| = r := abs_of_pos (lt_of_lt_of_le (by positivity) hlo)
  have hrne := isRne_rneAt h (x_lt_of_sticky h)
  rw [belowPow2_iff, TinyAfterRounding, habs]
  constructor
  · intro hbelow
    exact ⟨_, _, hlo, hhi, hrne, hbelow⟩
  · rintro ⟨E, N, hE, hE', hN, hbelow⟩
    obtain rfl : E = magLog2 m := le_antisymm (exponent_le_of_zpow_bounds hE hhi) (exponent_le_of_zpow_bounds hlo hE')
    rwa [hrne.unique hN]

end

end Sys2Proof.Machine
end

section
/-! PROOFS. `Round` answers the nearest word, ties to even, or overflows at the threshold, with R172's flags. -/

namespace Sys2Proof.Machine

/-! ## The nearest word -/

/-- `N` units are the nearest value to `r` of at most 24 significant bits, where the unit is the least one or `r` has
24 bits of it: a value in smaller units lies below `2^23` units, so that those are between it and `r`. -/
theorem IsRne.nearest_value {r : ℝ} {q : Int} {N : Nat} (h : IsRne (r / 2 ^ q) N)
    (hq : q = -149 ∨ 2 ^ 23 * (2 : ℝ) ^ q ≤ r) {M e : ℤ} (hM : |M| < 2 ^ 24) (he : -149 ≤ e) :
    |N * (2 : ℝ) ^ q - r| ≤ |M * (2 : ℝ) ^ e - r| ∧
    (|M * (2 : ℝ) ^ e - r| = |N * (2 : ℝ) ^ q - r| → M * (2 : ℝ) ^ e ≠ N * 2 ^ q → N % 2 = 0) := by
  have hpos : (0 : ℝ) < 2 ^ q := by positivity
  have hscale (y : ℝ) : |y * 2 ^ q - r| = |y - r / 2 ^ q| * 2 ^ q := by
    rw [← abs_of_pos hpos, ← abs_mul, abs_of_pos hpos, sub_mul, div_mul_cancel₀ _ hpos.ne']
  by_cases hqe : q ≤ e
  · obtain ⟨k, hk⟩ : ∃ k : ℤ, M * (2 : ℝ) ^ e = k * 2 ^ q :=
      ⟨M * 2 ^ (e - q).toNat, by rw [two_zpow_eq_pow_mul hqe]; push_cast; ring⟩
    obtain ⟨hle, htie⟩ := h.le_abs_sub k
    rw [hk, hscale, hscale, mul_le_mul_iff_left₀ hpos, mul_left_inj' hpos.ne', Ne, mul_left_inj' hpos.ne']
    exact ⟨hle, fun heq hne => htie heq (by exact_mod_cast hne)⟩
  · obtain hq | hnormal := hq
    · omega
    have hbelow : M * (2 : ℝ) ^ e < 2 ^ 23 * 2 ^ q := by
      have hMr : (M : ℝ) < 2 ^ 24 := by exact_mod_cast (abs_lt.mp hM).2
      calc M * (2 : ℝ) ^ e < 2 ^ 24 * 2 ^ e := by gcongr
        _ ≤ 2 ^ 24 * 2 ^ (q - 1) := by gcongr; exacts [one_le_two, by omega]
        _ = 2 ^ 23 * 2 ^ q := by rw [zpow_sub_one₀ two_ne_zero]; ring
    have hle : |N * (2 : ℝ) ^ q - r| ≤ |2 ^ 23 * (2 : ℝ) ^ q - r| := by
      rw [hscale, hscale]
      exact mul_le_mul_of_nonneg_right (by exact_mod_cast (h.le_abs_sub (2 ^ 23 : ℕ)).1) hpos.le
    have hlt : |N * (2 : ℝ) ^ q - r| < |M * (2 : ℝ) ^ e - r| := hle.trans_lt (by
      rw [abs_of_nonpos (by linarith), abs_of_nonpos (by linarith)]
      linarith)
    exact ⟨hlt.le, fun heq => absurd heq hlt.ne'⟩

/-! ## Packing -/

/-- The word of sign `s` and `N` units of `2^q`, below `2^24` units. -/
def packUnits (s : Bool) (N : Nat) (q : Int) : Word :=
  if N < 2 ^ 23 then packWord s 0 N else packWord s (q + 150).toNat (N - 2 ^ 23)

theorem finishRound_carry (s : Bool) (q : Int) (inexact tiny : Bool) :
    finishRound s (2 ^ 24) q inexact tiny = finishRound s (2 ^ 23) (q + 1) inexact tiny := by
  simp [finishRound]

theorem finishRound_of_ge {N : Nat} (hN : N < 2 ^ 24) {q : Int} (hq : 105 ≤ q) (s inexact tiny : Bool) :
    finishRound s N q inexact tiny = ⟨infWord s, flagOF ||| flagNX⟩ := by
  simp only [finishRound, hN.ne, if_false]
  rw [if_pos (by omega)]

theorem finishRound_of_lt {N : Nat} (hN : N < 2 ^ 24) {q : Int} (hq : q < 105) (s inexact tiny : Bool) :
    finishRound s N q inexact tiny =
      ⟨packUnits s N q, flagIf inexact flagNX ||| flagIf (tiny && inexact) flagUF⟩ := by
  simp only [finishRound, hN.ne, if_false, packUnits]
  rw [if_neg (by omega)]
  split <;> rfl

/-- `N` units of `2^q` are a finite word: 24 bits, and a full 24 of them unless `q` is the least unit. -/
structure Packable (N : Nat) (q : Int) : Prop where
  lt : N < 2 ^ 24
  ge : -149 ≤ q
  subnormal : N < 2 ^ 23 → q = -149

section
variable {N : Nat} {q : Int}

theorem Packable.fields (h : Packable N q) (hq : q < 105) (s : Bool) :
    (fpExp (packUnits s N q)).toNat < 255 ∧ (fpFrac (packUnits s N q)).toNat = N % 2 ^ 23 ∧
    significand (packUnits s N q) = N ∧ (N ≠ 0 → unitExp (packUnits s N q) = q) := by
  obtain ⟨hlt, hge, hsub⟩ := h
  unfold packUnits significand unitExp
  by_cases hN : N < 2 ^ 23
  · have hexp := fpExp_packWord s (e := 0) (f := N) (by norm_num) hN
    have hfrac := fpFrac_packWord s (e := 0) (f := N) (by norm_num) hN
    have hexp0 : fpExp (packWord s 0 N) = 0#8 := BitVec.eq_of_toNat_eq hexp
    simp only [hN, if_true, hexp0, hfrac, Nat.mod_eq_of_lt hN, hsub hN]
    simp
  · have hf : N - 2 ^ 23 < 2 ^ 23 := by omega
    have he : (q + 150).toNat < 256 := by omega
    have hexp := fpExp_packWord s he hf
    have hfrac := fpFrac_packWord s he hf
    have hexp0 : fpExp (packWord s (q + 150).toNat (N - 2 ^ 23)) ≠ 0#8 := fun h0 => by
      rw [h0] at hexp; simp at hexp; omega
    simp only [hN, if_false, hexp0, hexp, hfrac]
    omega

theorem Packable.isFinite_packUnits (h : Packable N q) (hq : q < 105) (s : Bool) : isFinite (packUnits s N q) = true :=
  (isFinite_iff _).mpr (h.fields hq s).1

theorem fpSign_packUnits (s : Bool) (N : Nat) (q : Int) : fpSign (packUnits s N q) = s := by
  unfold packUnits
  split <;> exact fpSign_packWord_eq _ _ _

theorem Packable.val_packUnits (h : Packable N q) (hq : q < 105) (s : Bool) :
    ((val (packUnits s N q) : ℚ) : ℝ) = signFactor s * (N * (2 : ℝ) ^ q) := by
  obtain ⟨-, -, hsig, hunit⟩ := h.fields hq s
  rw [val_eq, fpSign_packUnits, hsig]
  obtain rfl | hN := eq_or_ne N 0
  · simp
  · rw [hunit hN]

theorem Packable.getLsbD_zero_packUnits (h : Packable N q) (hq : q < 105) (s : Bool) (heven : N % 2 = 0) :
    (packUnits s N q).getLsbD 0 = false := by
  have hfrac : (fpFrac (packUnits s N q)).getLsbD 0 = (packUnits s N q).getLsbD 0 := by
    simp [fpFrac]
  rw [← hfrac, BitVec.getLsbD, Nat.testBit_eq_decide_div_mod_eq, (h.fields hq s).2.1]
  simp
  omega

end

/-! ## Overflow and the carry -/

/-- `E`, `q` and `N` of R172 for the real `r`: its binary exponent, the unit of the result, and `r` rounded to it,
before the carry. -/
structure Rounded (r : ℝ) (E q : Int) (N : Nat) : Prop where
  low : (2 : ℝ) ^ E ≤ r
  high : r < (2 : ℝ) ^ (E + 1)
  unit : q = max E (-126) - 23
  near : IsRne (r / 2 ^ q) N

section
variable {r : ℝ} {E q : Int} {N : Nat}

theorem Rounded.pos (h : Rounded r E q N) : 0 < r := lt_of_lt_of_le (by positivity) h.low

theorem Rounded.le_pow (h : Rounded r E q N) : N ≤ 2 ^ 24 := by
  have hq : (0 : ℝ) < 2 ^ q := by positivity
  have hE : (2 : ℝ) ^ (E + 1) ≤ 2 ^ 24 * 2 ^ q := by
    rw [← zpow_natCast, ← zpow_add₀ two_ne_zero]
    exact zpow_le_zpow_right₀ one_le_two (by have := h.unit; push_cast; omega)
  refine Nat.lt_succ_iff.mp (h.near.lt_of_lt ?_)
  rw [div_lt_iff₀ hq]
  push_cast
  linarith [h.high]

theorem Rounded.least_or_normal (h : Rounded r E q N) : q = -149 ∨ 2 ^ 23 * (2 : ℝ) ^ q ≤ r := by
  by_cases hE : E ≤ -126
  · exact .inl (by have := h.unit; omega)
  · refine .inr (le_trans ?_ h.low)
    rw [← zpow_natCast, ← zpow_add₀ two_ne_zero]
    exact zpow_le_zpow_right₀ one_le_two (by have := h.unit; push_cast; omega)

theorem Rounded.normal (h : Rounded r E q N) (hN : N < 2 ^ 23) : q = -149 := by
  refine h.least_or_normal.resolve_right fun hle => ?_
  have hle' : ((2 ^ 23 : ℕ) : ℝ) ≤ r / 2 ^ q := by
    rw [le_div_iff₀ (by positivity)]
    exact_mod_cast hle
  exact absurd (h.near.le_of_le hle') (not_le.mpr hN)

/-- R172 overflows exactly from its threshold, the middle of `2^24 - 1` and `2^24` units of `2^104`. -/
theorem Rounded.overflow_iff (h : Rounded r E q N) :
    (105 ≤ q ∨ q = 104 ∧ N = 2 ^ 24) ↔ overflowBound ≤ r := by
  have hunit := h.unit
  have hbound : overflowBound = (((2 ^ 24 : ℕ) : ℝ) - 1 / 2) * 2 ^ (104 : ℤ) := by norm_num [overflowBound]
  constructor
  · rintro (hq | ⟨rfl, rfl⟩)
    · have hE : (2 : ℝ) ^ (128 : ℤ) ≤ 2 ^ E := zpow_le_zpow_right₀ one_le_two (by omega)
      have hle : overflowBound ≤ (2 : ℝ) ^ (128 : ℤ) := by norm_num [overflowBound]
      exact hle.trans (hE.trans h.low)
    · by_contra hlt
      rw [hbound, not_le, ← div_lt_iff₀ (by positivity)] at hlt
      exact absurd (h.near.lt_of_lt hlt) (lt_irrefl _)
  · intro hle
    by_contra hno
    obtain hq | ⟨rfl, hN⟩ : q < 104 ∨ q = 104 ∧ N < 2 ^ 24 := by have := h.le_pow; omega
    · have hE : (2 : ℝ) ^ (E + 1) ≤ 2 ^ (127 : ℤ) := zpow_le_zpow_right₀ one_le_two (by omega)
      have hlt : (2 : ℝ) ^ (127 : ℤ) < overflowBound := by norm_num [overflowBound]
      exact absurd (hle.trans_lt h.high) (not_lt.mpr (hE.trans hlt.le))
    · have hlt := h.near.lt_half hN (by norm_num)
      rw [div_lt_iff₀ (by positivity), ← hbound] at hlt
      exact absurd hle (not_le.mpr hlt)

/-- After the carry, the units are packable, overflow at R172's threshold, and keep value and parity. -/
theorem Rounded.exists_carried (h : Rounded r E q N) (s inexact tiny : Bool) :
    ∃ N' q', finishRound s N q inexact tiny = finishRound s N' q' inexact tiny ∧ Packable N' q' ∧
      (N' : ℝ) * 2 ^ q' = N * 2 ^ q ∧ (N % 2 = 0 → N' % 2 = 0) ∧ (105 ≤ q' ↔ overflowBound ≤ r) := by
  have hunit := h.unit
  rw [← h.overflow_iff]
  obtain rfl | hN := h.le_pow.eq_or_lt
  · exact ⟨2 ^ 23, q + 1, finishRound_carry s q inexact tiny, ⟨by norm_num, by omega, by norm_num⟩,
      by rw [zpow_add_one₀ two_ne_zero]; push_cast; ring, by norm_num, by omega⟩
  · exact ⟨N, q, rfl, ⟨hN, by omega, h.normal⟩, rfl, id, by omega⟩

end

/-! ## Correct rounding -/

theorem tinyAfterRounding_signFactor (s : Bool) (r : ℝ) :
    TinyAfterRounding (signFactor s * r) ↔ TinyAfterRounding r := by
  simp only [TinyAfterRounding, abs_signFactor_mul]

/-- The flags of a rounding below overflow, as the clauses of `CorrectlyRounded` read them. -/
theorem roundingFlags_iff (inexact tiny : Bool) :
    let flags := flagIf inexact flagNX ||| flagIf (tiny && inexact) flagUF
    (flags &&& flagNX ≠ 0#5 ↔ inexact = true) ∧ flags &&& (flagOF ||| flagDZ ||| flagNV) = 0#5 ∧
    (flags &&& flagUF ≠ 0#5 ↔ tiny = true ∧ inexact = true) := by
  cases inexact <;> cases tiny <;> decide

/-- A word's value, of either sign, has 24 significant bits in units of at least `2^-149`. -/
theorem exists_signFactor_mul_val_eq (s : Bool) (v : Word) :
    ∃ M e : ℤ, |M| < 2 ^ 24 ∧ -149 ≤ e ∧ signFactor s * ((val v : ℚ) : ℝ) = M * (2 : ℝ) ^ e := by
  have hM := abs_alignedInt_unitExp_lt v
  rw [val_eq_alignedInt v le_rfl]
  cases s
  · exact ⟨_, _, hM, unitExp_ge v, one_mul _⟩
  · exact ⟨-alignedInt v (unitExp v), _, by rwa [abs_neg], unitExp_ge v, by simp⟩

/-- The nearest units, of the sign of the real, are the nearest word. -/
theorem isNearestEven_of_units {r : ℝ} {q : Int} {N : Nat} {s : Bool} {w : Word} (hfin : isFinite w = true)
    (hval : ((val w : ℚ) : ℝ) = signFactor s * (N * 2 ^ q)) (heven : N % 2 = 0 → w.getLsbD 0 = false)
    (hnear : IsRne (r / 2 ^ q) N) (hq : q = -149 ∨ 2 ^ 23 * (2 : ℝ) ^ q ≤ r) : IsNearestEven (signFactor s * r) w := by
  have hdist : |((val w : ℚ) : ℝ) - signFactor s * r| = |N * (2 : ℝ) ^ q - r| := by
    rw [hval, ← mul_sub, abs_signFactor_mul]
  have hcompare (v : Word) : |((val w : ℚ) : ℝ) - signFactor s * r| ≤ |((val v : ℚ) : ℝ) - signFactor s * r| ∧
      (|((val v : ℚ) : ℝ) - signFactor s * r| = |((val w : ℚ) : ℝ) - signFactor s * r| →
        signFactor s * ((val v : ℚ) : ℝ) ≠ N * 2 ^ q → N % 2 = 0) := by
    obtain ⟨M, e, hM, he, hv⟩ := exists_signFactor_mul_val_eq s v
    rw [hdist, ← abs_signFactor_mul_sub, hv]
    exact hnear.nearest_value hq hM he
  refine ⟨hfin, fun v _ => (hcompare v).1, fun v _ heq hne => heven ((hcompare v).2 heq fun hsame => hne ?_)⟩
  rw [← hsame, signFactor_mul_self_mul] at hval
  exact_mod_cast hval.symm

/-- Rounded units, with R172's inexact and tiny conditions, are finished to a correctly rounded result. -/
theorem correctlyRounded_finishRound {r : ℝ} {E q : Int} {N : Nat} (h : Rounded r E q N) (s : Bool)
    {inexact tiny : Bool} (hinexact : inexact = true ↔ (N : ℝ) * 2 ^ q ≠ r)
    (htiny : tiny = true ↔ TinyAfterRounding r) :
    CorrectlyRounded (signFactor s * r) (finishRound s N q inexact tiny) := by
  obtain ⟨N', q', hfinish, hpack, hvalue, hparity, hoverflow⟩ := h.exists_carried s inexact tiny
  rw [hfinish, CorrectlyRounded, abs_signFactor_mul, abs_of_pos h.pos]
  refine ⟨fun hle => ?_, fun hlt => ?_⟩
  case refine_1 =>
    rw [finishRound_of_ge hpack.lt (hoverflow.mpr hle)]
    simp only [signFactor_mul_neg_iff s h.pos, Bool.decide_eq_true]
  case refine_2 =>
    have hq' : q' < 105 := by
      by_contra hge
      exact absurd (hoverflow.mp (not_lt.mp hge)) (not_le.mpr hlt)
    have hval := hpack.val_packUnits hq' s
    rw [hvalue] at hval
    obtain ⟨hNX, hOther, hUF⟩ := roundingFlags_iff inexact tiny
    rw [finishRound_of_lt hpack.lt hq']
    refine ⟨isNearestEven_of_units (hpack.isFinite_packUnits hq' s) hval
      (fun heven => hpack.getLsbD_zero_packUnits hq' s (hparity heven)) h.near h.least_or_normal, ?_, hOther, ?_⟩
    · rw [hNX, hinexact, hval, Ne, Ne, signFactor_mul_left_inj]
    · rw [hUF, hNX, htiny, tinyAfterRounding_signFactor]

theorem correctlyRounded_zero (s : Bool) : CorrectlyRounded 0 ⟨zeroWord s, 0#5⟩ := by
  have hbound : ¬overflowBound ≤ 0 := by norm_num [overflowBound]
  have hval : ((val (zeroWord s) : ℚ) : ℝ) = 0 := by
    rw [val_eq, (significand_eq_zero_iff _).mpr (by cases s <;> decide)]
    simp
  have htiny : ¬TinyAfterRounding 0 := by simp [tinyAfterRounding_iff]
  rw [CorrectlyRounded, abs_zero]
  refine ⟨fun h => absurd h hbound, fun _ => ⟨⟨by cases s <;> decide, fun w _ => ?_, fun w _ heq hne => ?_⟩,
    ?_, ?_, ?_⟩⟩
  · simp [hval]
  · cases s <;> decide
  · simp [hval]
  · exact BitVec.zero_and
  · simp [htiny]

/-- What `Round` has of a nonzero magnitude before the carry (R172). -/
theorem Magnitude.Holds.rounded {m : Magnitude} {r : ℝ} (h : m.Holds r) (hn : m.n ≠ 0) :
    Rounded r (magLog2 m) (max (magLog2 m) (-126) - 23) (rneAt m (max (magLog2 m) (-126) - 23)) := by
  obtain ⟨hlow, hhigh⟩ := magLog2_bounds h hn
  exact ⟨hlow, hhigh, rfl, isRne_rneAt h fun hs => (x_lt_of_sticky h hs).trans_le (by omega)⟩

/-- `Round` is correct rounding of the real its magnitude stands for (R172). -/
theorem correctlyRounded_roundFp (s : Bool) {m : Magnitude} {r : ℝ} (h : m.Holds r) :
    CorrectlyRounded (signFactor s * r) (roundFp s m) := by
  unfold roundFp
  split
  case isTrue hzero =>
    obtain ⟨hn, hs⟩ := hzero
    rw [h.eq_of_not_sticky hs, hn, Nat.cast_zero, zero_mul, mul_zero]
    exact correctlyRounded_zero s
  case isFalse hnonzero =>
    have hn : m.n ≠ 0 := fun hn => by
      have hsticky : m.sticky = true := by simpa [hn] using hnonzero
      have := h.wide hsticky
      omega
    exact correctlyRounded_finishRound (h.rounded hn) s
      (inexactAt_iff h fun hs => (x_lt_of_sticky h hs).trans_le (by omega))
      (belowPow2_iff_tinyAfterRounding h hn)

end Sys2Proof.Machine
end

section
/-! PROOFS. Sum, difference, product, quotient and root of finite words are correctly rounded (R176 to R180): each is
`Round` of a magnitude that stands for the exact result. -/

namespace Sys2Proof.Machine

/-! ## The exact results -/

theorem holds_exact (n : Nat) (x : Int) : Magnitude.Holds ⟨n, x, false⟩ (n * (2 : ℝ) ^ x) :=
  ⟨by rw [inUnit_false, mul_div_cancel_right₀ _ (by positivity)], by simp⟩

theorem val_add_val_eq (a b : Word) :
    ((val a : ℚ) : ℝ) + ((val b : ℚ) : ℝ) = exactSum a b * (2 : ℝ) ^ sumExp a b := by
  rw [val_eq_alignedInt a (min_le_left (unitExp a) (unitExp b)),
    val_eq_alignedInt b (min_le_right (unitExp a) (unitExp b)), exactSum, sumExp]
  push_cast
  ring

/-- An integer is its sign times its magnitude. -/
theorem signFactor_mul_natAbs (z : ℤ) : signFactor (decide (z < 0)) * (z.natAbs : ℝ) = z := by
  by_cases hz : z < 0
  · simp [hz, abs_of_neg]
  · simp [hz, abs_of_nonneg (not_lt.mp hz)]

/-- An integer quotient with a sticky bit for the remainder. -/
theorem inUnit_div (k d : Nat) (hd : 0 < d) : InUnit (k / d) (k % d != 0) ((k : ℝ) / d) := by
  have hd' : (0 : ℝ) < d := by exact_mod_cast hd
  have hk : (k : ℝ) = (k / d : ℕ) * d + (k % d : ℕ) := by exact_mod_cast (Nat.div_add_mod' k d).symm
  have hrem : ((k % d : ℕ) : ℝ) < d := by exact_mod_cast Nat.mod_lt k hd
  by_cases h : k % d = 0
  · rw [h, Nat.cast_zero, add_zero] at hk
    rw [h, bne_self_eq_false, inUnit_false, div_eq_iff hd'.ne', ← hk]
  · have hpos : (0 : ℝ) < (k % d : ℕ) := by exact_mod_cast Nat.pos_of_ne_zero h
    rw [bne_iff_ne.mpr h, inUnit_true, lt_div_iff₀ hd', div_lt_iff₀ hd']
    constructor <;> linarith

/-- An integer root with a sticky bit for the remainder. -/
theorem inUnit_sqrt {n k : Nat} (hlo : n * n ≤ k) (hhi : k < (n + 1) * (n + 1)) :
    InUnit n (n * n != k) (Real.sqrt k) := by
  by_cases h : n * n = k
  · rw [h, bne_self_eq_false, inUnit_false, ← h, Nat.cast_mul, Real.sqrt_mul_self (Nat.cast_nonneg n)]
  · rw [bne_iff_ne.mpr h, inUnit_true, Real.lt_sqrt (Nat.cast_nonneg n), Real.sqrt_lt' (by positivity), sq, sq]
    exact ⟨by exact_mod_cast lt_of_le_of_ne hlo h, by exact_mod_cast hhi⟩

theorem significand_pos {w : Word} (h : isZero w = false) : 0 < significand w :=
  Nat.pos_of_ne_zero fun h0 => by simp [(significand_eq_zero_iff w).mp h0] at h

/-- A quotient of significands moved up 50 bits has at least 26 bits, or is zero and exact. -/
theorem holds_quotient (a : Word) {b : Word} (hb : isZero b = false) :
    (quotient a b).Holds (significand a * (2 : ℝ) ^ unitExp a / (significand b * (2 : ℝ) ^ unitExp b)) := by
  have hden := significand_pos hb
  have hscale : significand a * (2 : ℝ) ^ unitExp a / (significand b * (2 : ℝ) ^ unitExp b) /
      2 ^ (unitExp a - unitExp b - quotientBits) = ((significand a * 2 ^ quotientBits : ℕ) : ℝ) / significand b := by
    have hden' : (significand b : ℝ) ≠ 0 := by exact_mod_cast hden.ne'
    rw [zpow_sub₀ two_ne_zero, zpow_sub₀ two_ne_zero, zpow_natCast]
    push_cast
    field_simp
  refine ⟨?_, fun hs => ?_⟩
  · rw [quotient, hscale]
    exact inUnit_div _ _ hden
  · have hnum : significand a ≠ 0 := by
      rintro h0
      simp [quotient, h0] at hs
    rw [quotient, Nat.le_div_iff_mul_le hden]
    have := significand_lt b
    calc 2 ^ 25 * significand b ≤ 1 * 2 ^ quotientBits := by unfold quotientBits; omega
      _ ≤ significand a * 2 ^ quotientBits := Nat.mul_le_mul_right _ (Nat.one_le_iff_ne_zero.mpr hnum)

/-- The radicand stands for the operand, in units that are a square. -/
theorem radicand_scale (a : Word) :
    significand a * (2 : ℝ) ^ unitExp a = radicand a * ((2 : ℝ) ^ (rootMagnitude a).x) ^ 2 := by
  have hexp : unitExp a = (52 + (unitExp a % 2).toNat : ℕ) + (rootMagnitude a).x * 2 := by
    simp only [rootMagnitude]
    push_cast
    omega
  rw [← zpow_natCast, ← zpow_mul, radicand]
  nth_rw 1 [hexp]
  rw [zpow_add₀ two_ne_zero, zpow_natCast]
  push_cast
  ring

/-- A root of a radicand moved up 52 bits has at least 26 bits. -/
theorem holds_rootMagnitude {a : Word} (h : isZero a = false) :
    (rootMagnitude a).Holds (Real.sqrt (significand a * (2 : ℝ) ^ unitExp a)) := by
  obtain ⟨hlo, hhi⟩ := rootMagnitude_bracket a
  refine ⟨?_, fun _ => ?_⟩
  · rw [radicand_scale, Real.sqrt_mul (Nat.cast_nonneg _), Real.sqrt_sq (by positivity),
      mul_div_cancel_right₀ _ (by positivity)]
    exact inUnit_sqrt hlo hhi
  · have hrad : 2 ^ 52 ≤ radicand a :=
      calc 2 ^ 52 ≤ 2 ^ (52 + (unitExp a % 2).toNat) := Nat.pow_le_pow_right (by norm_num) (by omega)
        _ ≤ radicand a := Nat.le_mul_of_pos_left _ (significand_pos h)
    by_contra hlt
    have hle : (rootMagnitude a).n + 1 ≤ 2 ^ 25 := not_le.mp hlt
    have := Nat.mul_le_mul hle hle
    omega

/-! ## The operators on finite words -/

section
variable {a b : Word}

theorem fadd32_of_isFinite (ha : isFinite a = true) (hb : isFinite b = true) :
    fadd32 a b = if exactSum a b = 0 then ⟨zeroWord (isZero a && isZero b && fpSign a && fpSign b), 0#5⟩
      else roundFp (decide (exactSum a b < 0)) ⟨(exactSum a b).natAbs, sumExp a b, false⟩ := by
  simp [fadd32, isNaN_of_isFinite, isInf_of_isFinite, ha, hb]

theorem fmul32_of_isFinite (ha : isFinite a = true) (hb : isFinite b = true) :
    fmul32 a b = roundFp (fpSign a ^^ fpSign b)
      ⟨significand a * significand b, unitExp a + unitExp b, false⟩ := by
  simp [fmul32, isNaN_of_isFinite, isInf_of_isFinite, ha, hb]

theorem fdiv32_of_isFinite (ha : isFinite a = true) (hb : isFinite b = true) (hzero : isZero b = false) :
    fdiv32 a b = roundFp (fpSign a ^^ fpSign b) (quotient a b) := by
  simp [fdiv32, isNaN_of_isFinite, isInf_of_isFinite, ha, hb, hzero]

theorem fsqrt32_of_isFinite (ha : isFinite a = true) (hzero : isZero a = false) (hsign : fpSign a = false) :
    fsqrt32 a = roundFp false (rootMagnitude a) := by
  simp [fsqrt32, isNaN_of_isFinite ha, isInf_of_isFinite ha, hzero, hsign]

theorem isNaN_of_isZero (h : isZero a = true) : isNaN a = false := by
  simp_all [isZero, isNaN]

theorem fsqrt32_of_isZero (h : isZero a = true) : fsqrt32 a = ⟨a, 0#5⟩ := by
  simp [fsqrt32, isNaN_of_isZero h, h]

theorem correctlyRounded_fadd32 (ha : isFinite a = true) (hb : isFinite b = true) :
    CorrectlyRounded (((val a : ℚ) : ℝ) + ((val b : ℚ) : ℝ)) (fadd32 a b) := by
  rw [val_add_val_eq, fadd32_of_isFinite ha hb]
  split
  case isTrue hzero =>
    rw [hzero, Int.cast_zero, zero_mul]
    exact correctlyRounded_zero _
  case isFalse =>
    rw [← signFactor_mul_natAbs, mul_assoc]
    exact correctlyRounded_roundFp _ (holds_exact _ _)

end

/-- Settles O21: the sum is `Round` of an integer in the smaller unit, and the difference is the sum with `-b`. -/
theorem sumAndDifferenceAreCorrectlyRounded : Obligations.SumAndDifferenceAreCorrectlyRounded := by
  intro a b ha hb
  refine ⟨correctlyRounded_fadd32 ha hb, ?_⟩
  have hflip := correctlyRounded_fadd32 ha ((isFinite_flipSign b).trans hb)
  rwa [val_flipSign, Rat.cast_neg, ← sub_eq_add_neg] at hflip

/-- Settles O22: the product is `Round` of the significands' product. -/
theorem productIsCorrectlyRounded : Obligations.ProductIsCorrectlyRounded := by
  intro a b ha hb
  have hproduct : ((val a : ℚ) : ℝ) * ((val b : ℚ) : ℝ) = signFactor (fpSign a ^^ fpSign b) *
      ((significand a * significand b : ℕ) * (2 : ℝ) ^ (unitExp a + unitExp b)) := by
    rw [val_eq, val_eq, signFactor_xor, zpow_add₀ two_ne_zero]
    push_cast
    ring
  rw [hproduct, fmul32_of_isFinite ha hb]
  exact correctlyRounded_roundFp _ (holds_exact _ _)

/-- Settles O23: the quotient is `Round` of the truncated quotient of the significands. -/
theorem quotientIsCorrectlyRounded : Obligations.QuotientIsCorrectlyRounded := by
  intro a b ha hb hzero
  have hquotient : ((val a : ℚ) : ℝ) / ((val b : ℚ) : ℝ) = signFactor (fpSign a ^^ fpSign b) *
      (significand a * (2 : ℝ) ^ unitExp a / (significand b * (2 : ℝ) ^ unitExp b)) := by
    rw [val_eq, val_eq, signFactor_xor, mul_div_mul_comm, div_eq_mul_inv (signFactor _), signFactor_inv]
  rw [hquotient, fdiv32_of_isFinite ha hb hzero]
  exact correctlyRounded_roundFp _ (holds_quotient a hzero)

theorem val_eq_zero_of_isZero {a : Word} (h : isZero a = true) : val a = 0 := by
  simp [val, (significand_eq_zero_iff a).mpr h]

/-- Settles O24: the root of a zero is that zero, and else `Round` of the truncated root of the radicand. -/
theorem rootIsCorrectlyRounded : Obligations.RootIsCorrectlyRounded := by
  intro a ha hroot
  by_cases hzero : isZero a = true
  · rw [fsqrt32_of_isZero hzero, val_eq_zero_of_isZero hzero, Rat.cast_zero, Real.sqrt_zero,
      eq_zeroWord_of_isZero hzero]
    exact correctlyRounded_zero _
  · have hsign := hroot.resolve_left hzero
    rw [Bool.not_eq_true] at hzero
    have hround := correctlyRounded_roundFp false (holds_rootMagnitude hzero)
    rw [signFactor_false, one_mul] at hround
    rwa [fsqrt32_of_isFinite ha hzero hsign, val_eq, hsign, signFactor_false, one_mul]

end Sys2Proof.Machine
end

section
/-! PROOFS. NaN and infinite operands, division by zero, and the NaNs an operator returns (R174, R176 to R180). -/

namespace Sys2Proof.Machine

/-! ## Classes of words (R170) -/

theorem fpExp_packWord_eq (s : Bool) (e f : Nat) : fpExp (packWord s e f) = BitVec.ofNat 8 e := by
  refine BitVec.eq_of_toNat_eq ?_
  simp only [fpExp, packWord, BitVec.extractLsb_toNat, Nat.shiftRight_eq_div_pow, toNat_append_eq_add,
    BitVec.toNat_ofNat]
  omega

theorem isNaN_packWord {e : Nat} (he : e < 255) (s : Bool) (f : Nat) : isNaN (packWord s e f) = false := by
  have hne : BitVec.ofNat 8 e ≠ 255#8 := fun h => by
    have := congrArg BitVec.toNat h
    simp at this
    omega
  simp [isNaN, fpExp_packWord_eq, hne]

@[simp] theorem isNaN_infWord (s : Bool) : isNaN (infWord s) = false := by cases s <;> decide

@[simp] theorem isNaN_zeroWord (s : Bool) : isNaN (zeroWord s) = false := by cases s <;> decide

theorem isNaN_finishRound (s : Bool) (N : Nat) (q : Int) (inexact tiny : Bool) :
    isNaN (finishRound s N q inexact tiny).w = false := by
  unfold finishRound
  generalize (if N = 2 ^ 24 then q + 1 else q) = q', (if N = 2 ^ 24 then 2 ^ 23 else N) = N'
  dsimp only
  split
  · exact isNaN_infWord s
  · split
    · exact isNaN_packWord (by norm_num) _ _
    · exact isNaN_packWord (by omega) _ _

/-- Rounding answers no NaN. -/
@[simp] theorem isNaN_roundFp (s : Bool) (m : Magnitude) : isNaN (roundFp s m).w = false := by
  unfold roundFp
  split
  · exact isNaN_zeroWord s
  · exact isNaN_finishRound _ _ _ _ _

@[simp] theorem isNaN_flipSign (w : Word) : isNaN (flipSign w) = isNaN w := by
  simp only [isNaN, fpExp_flipSign, fpFrac_flipSign]

@[simp] theorem isSNaN_flipSign (w : Word) : isSNaN (flipSign w) = isSNaN w := by
  simp only [isSNaN, isNaN_flipSign, fpFrac_flipSign]

@[simp] theorem isInf_flipSign (w : Word) : isInf (flipSign w) = isInf w := by
  simp only [isInf, fpExp_flipSign, fpFrac_flipSign]

theorem isInf_of_isZero {w : Word} (h : isZero w = true) : isInf w = false := by
  simp_all [isInf, isZero]

/-! ## NaN operands (R174) -/

section
variable {a b : Word}

theorem fadd32_of_isNaN (h : (isNaN a || isNaN b) = true) : fadd32 a b = nanResult (isSNaN a || isSNaN b) :=
  if_pos h

theorem fsub32_of_isNaN (h : (isNaN a || isNaN b) = true) : fsub32 a b = nanResult (isSNaN a || isSNaN b) := by
  rw [fsub32, fadd32_of_isNaN (by rwa [isNaN_flipSign]), isSNaN_flipSign]

theorem fmul32_of_isNaN (h : (isNaN a || isNaN b) = true) : fmul32 a b = nanResult (isSNaN a || isSNaN b) :=
  if_pos h

theorem fdiv32_of_isNaN (h : (isNaN a || isNaN b) = true) : fdiv32 a b = nanResult (isSNaN a || isSNaN b) :=
  if_pos h

theorem fsqrt32_of_isNaN (h : isNaN a = true) : fsqrt32 a = nanResult (isSNaN a) := if_pos h

theorem fclamp01_of_isNaN (h : isNaN a = true) : fclamp01 a = ⟨0x00000000#32, 0#5⟩ := if_pos h

theorem fmul32_self_of_isNaN (h : isNaN a = true) : fmul32 a a = nanResult (isSNaN a) := by
  rw [fmul32_of_isNaN (by rw [h, Bool.true_or]), Bool.or_self]

/-- A sum of magnitudes of which one is the canonical NaN is the canonical NaN, and raises no flag. -/
theorem fadd32_of_isMagnitude_of_qNaN (h : a = qNaN ∨ b = qNaN) (ha : isMagnitude a = true)
    (hb : isMagnitude b = true) : fadd32 a b = ⟨qNaN, 0#5⟩ := by
  have hnan : (isNaN a || isNaN b) = true := by
    obtain rfl | rfl := h
    · rw [show isNaN qNaN = true by decide, Bool.true_or]
    · rw [show isNaN qNaN = true by decide, Bool.or_true]
  rw [fadd32_of_isNaN hnan, isSNaN_of_isMagnitude ha, isSNaN_of_isMagnitude hb]
  rfl

theorem fmag32_of_isNaN (h : isNaN a = true ∨ isNaN b = true) :
    fmag32 a b = ⟨qNaN, (fmul32 a a).flags ||| (fmul32 b b).flags⟩ := by
  have hsquare : (fmul32 a a).w = qNaN ∨ (fmul32 b b).w = qNaN :=
    h.imp (fun h => by rw [fmul32_self_of_isNaN h]; rfl) (fun h => by rw [fmul32_self_of_isNaN h]; rfl)
  have hroot : fsqrt32 qNaN = ⟨qNaN, 0#5⟩ := by decide
  simp only [fmag32, fadd32_of_isMagnitude_of_qNaN hsquare (isMagnitude_fmul32_self a) (isMagnitude_fmul32_self b),
    hroot, BitVec.or_zero]

theorem flags_fmul32_self_of_quiet (h : isNaN a = true) (hq : isSNaN a = false) : (fmul32 a a).flags = 0#5 := by
  rw [fmul32_self_of_isNaN h, hq]
  rfl

end

/-! ## The NaNs an operator returns -/

/-- The word is the canonical NaN if it is a NaN. -/
def CanonicalIfNaN (w : Word) : Prop := isNaN w = true → w = 0x7FC00000#32

theorem canonicalIfNaN_qNaN : CanonicalIfNaN qNaN := fun _ => rfl

theorem canonicalIfNaN_of_not_isNaN {w : Word} (h : isNaN w = false) : CanonicalIfNaN w :=
  fun hnan => by simp [h] at hnan

theorem canonicalIfNaN_of_isInf {w : Word} (h : isInf w = true) : CanonicalIfNaN w :=
  canonicalIfNaN_of_not_isNaN (by rw [eq_infWord_of_isInf h, isNaN_infWord])

theorem canonicalIfNaN_fadd32 (a b : Word) : CanonicalIfNaN (fadd32 a b).w := by
  unfold fadd32
  split_ifs with _ _ hinfa hinfb
  · exact canonicalIfNaN_qNaN
  · exact canonicalIfNaN_qNaN
  · exact canonicalIfNaN_of_isInf hinfa
  · exact canonicalIfNaN_of_isInf hinfb
  · exact canonicalIfNaN_of_not_isNaN (isNaN_zeroWord _)
  · exact canonicalIfNaN_of_not_isNaN (isNaN_roundFp _ _)

theorem canonicalIfNaN_fmul32 (a b : Word) : CanonicalIfNaN (fmul32 a b).w := by
  unfold fmul32
  dsimp only
  split_ifs
  · exact canonicalIfNaN_qNaN
  · exact canonicalIfNaN_qNaN
  · exact canonicalIfNaN_of_not_isNaN (isNaN_infWord _)
  · exact canonicalIfNaN_of_not_isNaN (isNaN_roundFp _ _)

theorem canonicalIfNaN_fdiv32 (a b : Word) : CanonicalIfNaN (fdiv32 a b).w := by
  unfold fdiv32
  dsimp only
  split_ifs
  · exact canonicalIfNaN_qNaN
  · exact canonicalIfNaN_qNaN
  · exact canonicalIfNaN_of_not_isNaN (isNaN_infWord _)
  · exact canonicalIfNaN_of_not_isNaN (isNaN_zeroWord _)
  · exact canonicalIfNaN_qNaN
  · exact canonicalIfNaN_of_not_isNaN (isNaN_infWord _)
  · exact canonicalIfNaN_of_not_isNaN (isNaN_roundFp _ _)

theorem canonicalIfNaN_fsqrt32 (a : Word) : CanonicalIfNaN (fsqrt32 a).w := by
  unfold fsqrt32
  split_ifs with _ hzero _ hinf
  · exact canonicalIfNaN_qNaN
  · exact canonicalIfNaN_of_not_isNaN (isNaN_of_isZero hzero)
  · exact canonicalIfNaN_qNaN
  · exact canonicalIfNaN_of_isInf hinf
  · exact canonicalIfNaN_of_not_isNaN (isNaN_roundFp _ _)

theorem canonicalIfNaN_fclamp01 (a : Word) : CanonicalIfNaN (fclamp01 a).w := by
  unfold fclamp01
  split_ifs with hnan
  · exact canonicalIfNaN_of_not_isNaN (by decide)
  · exact canonicalIfNaN_of_not_isNaN (by decide)
  · exact canonicalIfNaN_of_not_isNaN (by decide)
  · exact canonicalIfNaN_of_not_isNaN (Bool.eq_false_of_not_eq_true hnan)

theorem canonicalIfNaN_fpOperator (f : FpSel) (a b : Word) : CanonicalIfNaN (fpOperator f a b).w := by
  cases f with
  | fadd => exact canonicalIfNaN_fadd32 a b
  | fsub => exact canonicalIfNaN_fadd32 a _
  | fmul => exact canonicalIfNaN_fmul32 a b
  | fdiv => exact canonicalIfNaN_fdiv32 a b
  | fsqrt => exact canonicalIfNaN_fsqrt32 a
  | fmag => exact canonicalIfNaN_fsqrt32 _
  | fclamp => exact canonicalIfNaN_fclamp01 a

/-- Settles O25: each operator's NaN branch, the four steps of `fmag32`, and each operator's other branches, of which
none returns another NaN. -/
theorem nanOperandsGiveTheCanonicalNan : Obligations.NanOperandsGiveTheCanonicalNan := by
  refine ⟨fun a b h => ⟨fadd32_of_isNaN h, fsub32_of_isNaN h, fmul32_of_isNaN h, fdiv32_of_isNaN h, ?_, nv_fmag32 a b⟩,
    fun a b h hq => ⟨?_, ?_⟩, fun a h => ⟨fsqrt32_of_isNaN h, fclamp01_of_isNaN h⟩, canonicalIfNaN_fpOperator⟩
  · rw [fmag32_of_isNaN (by simpa using h)]
    rfl
  · rw [fmag32_of_isNaN (.inl h), flags_fmul32_self_of_quiet h hq, BitVec.zero_or]
  · rw [fmag32_of_isNaN (.inr h), flags_fmul32_self_of_quiet h hq, BitVec.or_zero]

/-! ## Infinite operands and division by zero -/

section
variable {a b : Word} (ha : isNaN a = false) (hb : isNaN b = false)
include ha hb

theorem fadd32_inf_opposite (hinfa : isInf a = true) (hinfb : isInf b = true) (h : fpSign a ≠ fpSign b) :
    fadd32 a b = ⟨qNaN, flagNV⟩ := by
  simp [fadd32, ha, hb, hinfa, hinfb, h]

theorem fadd32_inf_left (hinfa : isInf a = true) (h : isInf b = false ∨ fpSign a = fpSign b) :
    fadd32 a b = ⟨a, 0#5⟩ := by
  rcases h with h | h <;> simp [fadd32, ha, hb, hinfa, h]

theorem fadd32_inf_right (hinfa : isInf a = false) (hinfb : isInf b = true) : fadd32 a b = ⟨b, 0#5⟩ := by
  simp [fadd32, ha, hb, hinfa, hinfb]

theorem fmul32_inf (hinf : isInf a = true ∨ isInf b = true) :
    fmul32 a b = if isZero a || isZero b then ⟨qNaN, flagNV⟩ else ⟨infWord (fpSign a ^^ fpSign b), 0#5⟩ := by
  rcases hinf with h | h <;> simp [fmul32, ha, hb, h]

theorem fdiv32_inf_inf (hinfa : isInf a = true) (hinfb : isInf b = true) : fdiv32 a b = ⟨qNaN, flagNV⟩ := by
  simp [fdiv32, ha, hb, hinfa, hinfb]

theorem fdiv32_inf_left (hinfa : isInf a = true) (hinfb : isInf b = false) :
    fdiv32 a b = ⟨infWord (fpSign a ^^ fpSign b), 0#5⟩ := by
  simp [fdiv32, ha, hb, hinfa, hinfb]

theorem fdiv32_inf_right (hinfa : isInf a = false) (hinfb : isInf b = true) :
    fdiv32 a b = ⟨zeroWord (fpSign a ^^ fpSign b), 0#5⟩ := by
  simp [fdiv32, ha, hb, hinfa, hinfb]

theorem fdiv32_by_zero (hinfa : isInf a = false) (hzerob : isZero b = true) :
    fdiv32 a b = if isZero a then ⟨qNaN, flagNV⟩ else ⟨infWord (fpSign a ^^ fpSign b), flagDZ⟩ := by
  simp [fdiv32, ha, hb, hinfa, hzerob, isInf_of_isZero hzerob]

end

/-- Settles O26: the branches of each operator before `Round`; a difference is the sum with `b`'s sign inverted. -/
theorem infiniteAndZeroOperands : Obligations.InfiniteAndZeroOperands := by
  refine ⟨fun _ _ => rfl, fun a b ha hb => ?_⟩
  have hb' : isNaN (flipSign b) = false := by rw [isNaN_flipSign, hb]
  refine ⟨?_, ?_, ?_, fadd32_inf_opposite ha hb, fadd32_inf_left ha hb, fadd32_inf_right ha hb, ?_, ?_,
    fdiv32_inf_inf ha hb, fdiv32_inf_left ha hb, fdiv32_inf_right ha hb, ?_, ?_, ?_, ?_⟩
  case refine_1 =>
    exact fun hinfa hinfb h => fadd32_inf_opposite ha hb' hinfa (by rwa [isInf_flipSign]) (by simp [h])
  case refine_2 =>
    exact fun hinfa h => fadd32_inf_left ha hb' hinfa (h.imp (by simp) (by simp [Bool.eq_not]))
  case refine_3 =>
    intro hinfa hinfb
    rw [fsub32, fadd32_inf_right ha hb' hinfa (by rwa [isInf_flipSign]),
      eq_infWord_of_isInf (by rwa [isInf_flipSign] : isInf (flipSign b) = true), fpSign_flipSign]
  case refine_4 =>
    intro hinf hzero
    rw [fmul32_inf ha hb (.inl hinf), fmul32_inf hb ha (.inr hinf), hzero, Bool.or_true, Bool.true_or]
    exact ⟨rfl, rfl⟩
  case refine_5 =>
    intro hinf hzero
    rw [fmul32_inf ha hb (.inl hinf), fmul32_inf hb ha (.inr hinf), hzero, isZero_of_isInf hinf,
      Bool.xor_comm (fpSign b)]
    exact ⟨rfl, rfl⟩
  case refine_6 =>
    intro hzeroa hzerob
    rw [fdiv32_by_zero ha hb (isInf_of_isZero hzeroa) hzerob, hzeroa]
    rfl
  case refine_7 =>
    intro hfin hzeroa hzerob
    rw [fdiv32_by_zero ha hb (isInf_of_isFinite hfin) hzerob, hzeroa]
    rfl
  case refine_8 =>
    intro hzero hsign
    simp [fsqrt32, ha, hzero, hsign, qNaN, flagNV]
  case refine_9 =>
    intro hinf hsign
    have hinfWord := eq_infWord_of_isInf hinf
    rw [hsign] at hinfWord
    rw [hinfWord]
    decide

end Sys2Proof.Machine
end

section
/-! PROOFS. The signs of results (R175), the flags that sums and roots never raise (R176, R180), and the clamp
(R182). -/

namespace Sys2Proof.Machine

/-! ## The sign of a rounded result -/

theorem fpSign_finishRound (s : Bool) (N : Nat) (q : Int) (inexact tiny : Bool) :
    fpSign (finishRound s N q inexact tiny).w = s := by
  unfold finishRound
  generalize (if N = 2 ^ 24 then q + 1 else q) = q', (if N = 2 ^ 24 then 2 ^ 23 else N) = N'
  dsimp only
  split
  · exact fpSign_infWord s
  · split <;> exact fpSign_packWord_eq _ _ _

@[simp] theorem fpSign_roundFp (s : Bool) (m : Magnitude) : fpSign (roundFp s m).w = s := by
  unfold roundFp
  split
  · exact fpSign_zeroWord s
  · exact fpSign_finishRound _ _ _ _ _

/-- A product that is no NaN has the XOR of the signs: a product is a NaN, an infinity or rounded. -/
theorem fpSign_fmul32 {a b : Word} (h : isNaN (fmul32 a b).w = false) :
    fpSign (fmul32 a b).w = (fpSign a ^^ fpSign b) := by
  have hqNaN : isNaN qNaN = true := by decide
  unfold fmul32 at h ⊢
  dsimp only at h ⊢
  split_ifs at h ⊢
  · simp [nanResult, hqNaN] at h
  · simp [hqNaN] at h
  · exact fpSign_infWord _
  · exact fpSign_roundFp _ _

theorem fpSign_fdiv32 {a b : Word} (h : isNaN (fdiv32 a b).w = false) :
    fpSign (fdiv32 a b).w = (fpSign a ^^ fpSign b) := by
  have hqNaN : isNaN qNaN = true := by decide
  unfold fdiv32 at h ⊢
  dsimp only at h ⊢
  split_ifs at h ⊢
  · simp [nanResult, hqNaN] at h
  · simp [hqNaN] at h
  · exact fpSign_infWord _
  · exact fpSign_zeroWord _
  · simp [hqNaN] at h
  · exact fpSign_infWord _
  · exact fpSign_roundFp _ _

/-! ## The sign of a sum -/

section
variable {a b : Word}

theorem val_add_val_eq_zero_iff (a b : Word) : val a + val b = 0 ↔ exactSum a b = 0 := by
  rw [← Rat.cast_eq_zero (α := ℝ), Rat.cast_add, val_add_val_eq, mul_eq_zero_iff_right (by positivity),
    Int.cast_eq_zero]

theorem val_add_val_neg_iff (a b : Word) : val a + val b < 0 ↔ exactSum a b < 0 := by
  have hunit : (0 : ℝ) < 2 ^ sumExp a b := by positivity
  rw [← Rat.cast_lt_zero (K := ℝ), Rat.cast_add, val_add_val_eq, ← zero_mul ((2 : ℝ) ^ sumExp a b),
    mul_lt_mul_iff_left₀ hunit, Int.cast_lt_zero]

theorem eq_negZero_iff (w : Word) : (isZero w = true ∧ fpSign w = true) ↔ w = 0x80000000#32 := by
  constructor
  · rintro ⟨hzero, hsign⟩
    rw [eq_zeroWord_of_isZero hzero, hsign]
    rfl
  · rintro rfl
    decide

theorem flipSign_eq_negZero_iff (w : Word) : flipSign w = 0x80000000#32 ↔ w = 0x00000000#32 := by
  rw [flipSign, ← BitVec.xor_left_inj (x := w) (y := 0#32) 0x80000000#32, BitVec.zero_xor]

/-- An exact zero sum is `+0` but for two operands `-0`. -/
theorem fadd32_of_zero_sum (ha : isFinite a = true) (hb : isFinite b = true) (h : val a + val b = 0) :
    fadd32 a b = ⟨if a = 0x80000000#32 ∧ b = 0x80000000#32 then 0x80000000#32 else 0x00000000#32, 0#5⟩ := by
  have hboth : (isZero a && isZero b && fpSign a && fpSign b) = true ↔ a = 0x80000000#32 ∧ b = 0x80000000#32 := by
    simp only [← eq_negZero_iff, Bool.and_eq_true]
    tauto
  rw [fadd32_of_isFinite ha hb, if_pos ((val_add_val_eq_zero_iff a b).mp h)]
  congr 1
  by_cases hneg : a = 0x80000000#32 ∧ b = 0x80000000#32
  · rw [if_pos hneg, hboth.mpr hneg]
    rfl
  · rw [if_neg hneg, Bool.eq_false_of_not_eq_true (mt hboth.mp hneg)]
    rfl

theorem fadd32_of_nonzero_sum (ha : isFinite a = true) (hb : isFinite b = true) (h : val a + val b ≠ 0) :
    fadd32 a b = roundFp (decide (exactSum a b < 0)) ⟨(exactSum a b).natAbs, sumExp a b, false⟩ := by
  rw [fadd32_of_isFinite ha hb, if_neg (mt (val_add_val_eq_zero_iff a b).mpr h)]

theorem fpSign_fadd32 (ha : isFinite a = true) (hb : isFinite b = true) (h : val a + val b ≠ 0) :
    fpSign (fadd32 a b).w = decide (val a + val b < 0) := by
  rw [fadd32_of_nonzero_sum ha hb h, fpSign_roundFp]
  exact decide_eq_decide.mpr (val_add_val_neg_iff a b).symm

end

/-- Settles O27: a zero sum's sign from its operands, every other result's from `Round`; a difference is the sum with
`-b`. -/
theorem signsOfZerosProductsAndQuotients : Obligations.SignsOfZerosProductsAndQuotients := by
  have hsub (a b : Word) : val a - val b = val a + val (flipSign b) := by rw [val_flipSign, sub_eq_add_neg]
  refine ⟨fun _ _ => fadd32_of_zero_sum, fun a b ha hb h => ?_, fun a b ha hb => ⟨fpSign_fadd32 ha hb, fun h => ?_⟩,
    fun _ _ => fpSign_fmul32, fun _ _ => fpSign_fdiv32, by decide⟩
  · rw [fsub32, fadd32_of_zero_sum ha ((isFinite_flipSign b).trans hb) (hsub a b ▸ h)]
    simp only [flipSign_eq_negZero_iff]
  · rw [hsub] at h ⊢
    exact fpSign_fadd32 ha ((isFinite_flipSign b).trans hb) h

/-! ## Underflow and zero results of sums -/

/-- UF is raised by a rounding only if it is tiny and inexact. -/
theorem not_uf_finishRound (s : Bool) (N : Nat) (q : Int) {inexact tiny : Bool} (h : tiny = true → inexact = false) :
    (finishRound s N q inexact tiny).flags.getLsbD 1 = false := by
  have hoverflow : (flagOF ||| flagNX).getLsbD 1 = false := by decide
  have hbelow : (flagIf inexact flagNX ||| flagIf (tiny && inexact) flagUF).getLsbD 1 = false := by
    cases tiny
    · cases inexact <;> decide
    · rw [h rfl]
      decide
  unfold finishRound
  generalize (if N = 2 ^ 24 then q + 1 else q) = q', (if N = 2 ^ 24 then 2 ^ 23 else N) = N'
  dsimp only
  split
  · exact hoverflow
  · split <;> exact hbelow

/-- A tiny exact multiple of the least unit is rounded to the least unit, so it is exact. -/
theorem not_uf_roundFp (s : Bool) {n : Nat} {x : Int} (hx : -149 ≤ x) :
    (roundFp s ⟨n, x, false⟩).flags.getLsbD 1 = false := by
  unfold roundFp
  split
  case isTrue => exact BitVec.getLsbD_zero
  case isFalse hnonzero =>
    have hn : n ≠ 0 := by simpa using hnonzero
    have hm := holds_exact n x
    refine not_uf_finishRound _ _ _ fun htiny => ?_
    obtain ⟨-, hsmall⟩ := (tinyAfterRounding_iff _).mp ((belowPow2_iff_tinyAfterRounding hm hn).mp htiny)
    have hlog : magLog2 ⟨n, x, false⟩ < -126 := by
      have hlow := (magLog2_bounds hm hn).1
      have hlt := ((hlow.trans (le_abs_self _)).trans_lt hsmall).trans (sub_lt_self _ (by positivity))
      exact (zpow_lt_zpow_iff_right₀ (one_lt_two (α := ℝ))).mp hlt
    have hexact : ¬x < max (magLog2 ⟨n, x, false⟩) (-126) - 23 := by omega
    simp [inexactAt, hexact]

theorem sumExp_ge (a b : Word) : -149 ≤ sumExp a b := le_min (unitExp_ge a) (unitExp_ge b)

theorem not_uf_nanResult (signalling : Bool) : (nanResult signalling).flags.getLsbD 1 = false := by
  cases signalling <;> decide

theorem not_uf_fadd32 (a b : Word) : (fadd32 a b).flags.getLsbD 1 = false := by
  unfold fadd32
  split_ifs
  · exact not_uf_nanResult _
  · decide
  · exact BitVec.getLsbD_zero
  · exact BitVec.getLsbD_zero
  · exact BitVec.getLsbD_zero
  · exact not_uf_roundFp _ (sumExp_ge a b)

theorem isZero_infWord (s : Bool) : isZero (infWord s) = false := by cases s <;> decide

/-- Nonzero units are packed as a nonzero word. -/
theorem Rounded.isZero_finishRound {r : ℝ} {E q : Int} {N : Nat} (h : Rounded r E q N) (hN : 0 < N)
    (s inexact tiny : Bool) : isZero (finishRound s N q inexact tiny).w = false := by
  obtain ⟨N', q', hfinish, hpack, hvalue, -, -⟩ := h.exists_carried s inexact tiny
  rw [hfinish]
  obtain hq' | hq' := lt_or_ge q' 105
  · rw [finishRound_of_lt hpack.lt hq']
    refine Bool.eq_false_of_not_eq_true fun hzero => ?_
    have hN' : N' = 0 := by rw [← (hpack.fields hq' s).2.2.1, significand_eq_zero_iff, hzero]
    have hpos : (0 : ℝ) < N * 2 ^ q := by positivity
    rw [hN', Nat.cast_zero, zero_mul] at hvalue
    exact hpos.ne hvalue
  · rw [finishRound_of_ge hpack.lt hq']
    exact isZero_infWord s

theorem isZero_roundFp (s : Bool) {m : Magnitude} {r : ℝ} (h : m.Holds r) (hn : m.n ≠ 0) (hlog : -149 ≤ magLog2 m) :
    isZero (roundFp s m).w = false := by
  unfold roundFp
  rw [if_neg fun hzero => hn hzero.1]
  exact (h.rounded hn).isZero_finishRound (rneAt_pos hn (by omega)) _ _ _

theorem isZero_fadd32 {a b : Word} (ha : isFinite a = true) (hb : isFinite b = true) (h : val a + val b ≠ 0) :
    isZero (fadd32 a b).w = false := by
  have hn : (exactSum a b).natAbs ≠ 0 := by simpa [val_add_val_eq_zero_iff] using h
  have hlog : -149 ≤ magLog2 ⟨(exactSum a b).natAbs, sumExp a b, false⟩ := by
    have := sumExp_ge a b
    unfold magLog2
    dsimp only
    omega
  rw [fadd32_of_nonzero_sum ha hb h]
  exact isZero_roundFp _ (holds_exact _ _) hn hlog

/-! ## Underflow and overflow of roots -/

theorem unitExp_le {w : Word} (h : isFinite w = true) : unitExp w ≤ 104 := by
  have := (isFinite_iff w).mp h
  unfold unitExp
  split <;> omega

/-- The root of a positive finite value is between `2^-75` and `2^64`. -/
theorem sqrt_bounds {a : Word} (ha : isFinite a = true) (hzero : isZero a = false) (hsign : fpSign a = false) :
    (2 : ℝ) ^ (-75 : ℤ) ≤ Real.sqrt ((val a : ℚ) : ℝ) ∧ Real.sqrt ((val a : ℚ) : ℝ) ≤ 2 ^ (64 : ℤ) := by
  have hone : (1 : ℝ) ≤ significand a := by exact_mod_cast significand_pos hzero
  have hlt : (significand a : ℝ) ≤ 2 ^ 24 := by exact_mod_cast (significand_lt a).le
  have hlow : (2 : ℝ) ^ (-149 : ℤ) ≤ 2 ^ unitExp a := zpow_le_zpow_right₀ one_le_two (unitExp_ge a)
  have hhigh : (2 : ℝ) ^ unitExp a ≤ 2 ^ (104 : ℤ) := zpow_le_zpow_right₀ one_le_two (unitExp_le ha)
  rw [val_eq, hsign, signFactor_false, one_mul]
  constructor
  · refine Real.le_sqrt_of_sq_le ?_
    calc ((2 : ℝ) ^ (-75 : ℤ)) ^ 2 ≤ 1 * 2 ^ (-149 : ℤ) := by norm_num
      _ ≤ significand a * 2 ^ unitExp a := mul_le_mul hone hlow (by positivity) (by positivity)
  · refine Real.sqrt_le_iff.mpr ⟨by positivity, ?_⟩
    calc significand a * (2 : ℝ) ^ unitExp a ≤ 2 ^ 24 * 2 ^ (104 : ℤ) :=
          mul_le_mul hlt hhigh (by positivity) (by positivity)
      _ = ((2 : ℝ) ^ (64 : ℤ)) ^ 2 := by norm_num

/-- UF and OF as bits, from the masks of `CorrectlyRounded`. -/
theorem no_uf_or_of_of_masks {f : FlagSet} (hUF : f &&& flagUF = 0#5)
    (hOther : f &&& (flagOF ||| flagDZ ||| flagNV) = 0#5) : f.getLsbD 1 = false ∧ f.getLsbD 2 = false := by
  revert f
  decide

theorem no_uf_or_of_fsqrt32_of_isFinite {a : Word} (ha : isFinite a = true) (hzero : isZero a = false)
    (hsign : fpSign a = false) : (fsqrt32 a).flags.getLsbD 1 = false ∧ (fsqrt32 a).flags.getLsbD 2 = false := by
  obtain ⟨hlow, hhigh⟩ := sqrt_bounds ha hzero hsign
  have habs : |Real.sqrt ((val a : ℚ) : ℝ)| = Real.sqrt ((val a : ℚ) : ℝ) := abs_of_nonneg (Real.sqrt_nonneg _)
  obtain ⟨-, hbelow⟩ := rootIsCorrectlyRounded a ha (.inr hsign)
  obtain ⟨-, -, hOther, hUF⟩ := hbelow (by
    rw [habs]
    exact hhigh.trans_lt (by norm_num [overflowBound]))
  have hnotTiny : ¬TinyAfterRounding (Real.sqrt ((val a : ℚ) : ℝ)) := fun htiny => by
    obtain ⟨-, hsmall⟩ := (tinyAfterRounding_iff _).mp htiny
    rw [habs] at hsmall
    exact absurd (hlow.trans_lt hsmall) (by norm_num)
  exact no_uf_or_of_of_masks (not_not.mp (mt hUF.mp fun h => hnotTiny h.1)) hOther

theorem no_uf_or_of_fsqrt32 (a : Word) : (fsqrt32 a).flags.getLsbD 1 = false ∧ (fsqrt32 a).flags.getLsbD 2 = false := by
  by_cases hround : isFinite a = true ∧ isZero a = false ∧ fpSign a = false
  · obtain ⟨ha, hzero, hsign⟩ := hround
    exact no_uf_or_of_fsqrt32_of_isFinite ha hzero hsign
  unfold fsqrt32
  split_ifs with hnan hzero hsign hinf
  · cases isSNaN a <;> decide
  · exact ⟨BitVec.getLsbD_zero, BitVec.getLsbD_zero⟩
  · exact ⟨by decide, by decide⟩
  · exact ⟨BitVec.getLsbD_zero, BitVec.getLsbD_zero⟩
  · refine absurd ⟨?_, by simpa using hzero, by simpa using hsign⟩ hround
    simp [isNaN, isInf, isFinite] at hnan hinf ⊢
    tauto

/-- Settles O28: a tiny sum is exact, a nonzero sum is at least one least unit, and a root is far from both ends of
the range. -/
theorem sumsNeverUnderflowRootsNeverOverflow : Obligations.SumsNeverUnderflowRootsNeverOverflow :=
  ⟨not_uf_fadd32, fun _ _ => isZero_fadd32, no_uf_or_of_fsqrt32⟩

/-! ## The clamp -/

theorem val_pos {a : Word} (hzero : isZero a = false) (hsign : fpSign a = false) : 0 < val a := by
  have hsig : (0 : ℚ) < significand a := by exact_mod_cast significand_pos hzero
  rw [val, hsign, if_neg Bool.false_ne_true, one_mul]
  exact mul_pos hsig (by positivity)

theorem val_nonpos {a : Word} (h : isZero a = true ∨ fpSign a = true) : val a ≤ 0 := by
  obtain hzero | hsign := h
  · exact (val_eq_zero_of_isZero hzero).le
  · have hmag : (0 : ℚ) ≤ significand a * 2 ^ unitExp a := by positivity
    rw [val, hsign, if_pos rfl, neg_one_mul, neg_mul]
    exact neg_nonpos.mpr hmag

/-- From 1.0 on the exponent field is at least 127. -/
theorem oneWord_le_iff {a : Word} (hsign : fpSign a = false) : oneWord ≤ a ↔ 127 ≤ (fpExp a).toNat := by
  have hfrac := (fpFrac a).isLt
  have hone : oneWord.toNat = 127 * 2 ^ 23 := by decide
  rw [BitVec.le_def, hone, toNat_eq_fields a, hsign, Bool.toNat_false]
  omega

/-- For words of sign 0 the word order is the value order at 1.0 (R182). -/
theorem oneWord_le_iff_one_le_val {a : Word} (hsign : fpSign a = false) : oneWord ≤ a ↔ 1 ≤ val a := by
  have hval : val a = significand a * 2 ^ unitExp a := by simp [val, hsign]
  rw [oneWord_le_iff hsign, hval]
  constructor
  · intro hexp
    have hne : fpExp a ≠ 0#8 := fun h0 => by simp [h0] at hexp
    have hsig : ((2 ^ 23 : ℕ) : ℚ) ≤ significand a := by
      exact_mod_cast (by simp [significand, hne] : 2 ^ 23 ≤ significand a)
    have hunit : (2 : ℚ) ^ (-23 : ℤ) ≤ 2 ^ unitExp a :=
      zpow_le_zpow_right₀ one_le_two (by simp [unitExp, hne]; omega)
    calc (1 : ℚ) = (2 ^ 23 : ℕ) * 2 ^ (-23 : ℤ) := by norm_num
      _ ≤ significand a * 2 ^ unitExp a := mul_le_mul hsig hunit (by positivity) (by positivity)
  · intro hval
    by_contra hexp
    have hsig : (significand a : ℚ) < (2 ^ 24 : ℕ) := by exact_mod_cast significand_lt a
    have hunit : (2 : ℚ) ^ unitExp a ≤ 2 ^ (-24 : ℤ) :=
      zpow_le_zpow_right₀ one_le_two (by unfold unitExp; split <;> omega)
    have hlt : significand a * (2 : ℚ) ^ unitExp a < 1 :=
      calc significand a * (2 : ℚ) ^ unitExp a < (2 ^ 24 : ℕ) * 2 ^ (-24 : ℤ) :=
            mul_lt_mul hsig hunit (by positivity) (by positivity)
        _ = 1 := by norm_num
    exact absurd hval (not_le.mpr hlt)

theorem flags_fclamp01 (a : Word) : (fclamp01 a).flags = 0#5 := by
  unfold fclamp01
  split_ifs <;> rfl

section
variable {a : Word} (hnan : isNaN a = false)
include hnan

theorem fclamp01_of_nonpos (h : isZero a = true ∨ fpSign a = true) : (fclamp01 a).w = 0x00000000#32 := by
  rcases h with h | h <;> simp [fclamp01, hnan, h]

theorem fclamp01_of_ge (hzero : isZero a = false) (hsign : fpSign a = false) (h : oneWord ≤ a) :
    (fclamp01 a).w = oneWord := by
  simp [fclamp01, hnan, hzero, hsign, h]

theorem fclamp01_of_lt (hzero : isZero a = false) (hsign : fpSign a = false) (h : ¬oneWord ≤ a) :
    (fclamp01 a).w = a := by
  simp [fclamp01, hnan, hzero, hsign, h]

end

/-- Settles O30: the branches of the clamp, chosen by the value's sign and by its order to 1.0. -/
theorem clampReturnsTheClampedValue : Obligations.ClampReturnsTheClampedValue := by
  intro a
  refine ⟨flags_fclamp01 a, inUnitRange_fclamp01 a, fun hnan => by rw [fclamp01_of_isNaN hnan], fun hinf => ?_,
    fun hfin => ?_⟩
  case refine_1 =>
    rw [eq_infWord_of_isInf hinf]
    cases fpSign a <;> decide
  case refine_2 =>
    have hnan := isNaN_of_isFinite hfin
    by_cases hsigned : isZero a = true ∨ fpSign a = true
    · have hval := val_nonpos hsigned
      exact ⟨fun _ => fclamp01_of_nonpos hnan hsigned, fun hone => by linarith, fun hpos => by linarith⟩
    · obtain ⟨hzero, hsign⟩ : isZero a = false ∧ fpSign a = false := by simpa using hsigned
      have hval := val_pos hzero hsign
      have horder := oneWord_le_iff_one_le_val hsign
      exact ⟨fun hnonpos => by linarith, fun hone => fclamp01_of_ge hnan hzero hsign (horder.mpr hone),
        fun _ hlt => fclamp01_of_lt hnan hzero hsign (mt horder.mp (not_le.mpr hlt))⟩

end Sys2Proof.Machine
end

section
/-! PROOFS. The life of a run (R201 to R204, R210, R215, R219, R221, R302): when its completion comes, what it
publishes, and that this is a function of the frame. -/

namespace Sys2Proof.Machine

variable {s t : State}

/-! ## Completion (R215, R302) -/

/-- The Engine completes a run with its turn, and when no event is listed (logs 1 and 2). -/
theorem step_of_running {rest : List Event} (hrun : s.phase = .running)
    (hi : s.inputs = .engine :: rest ∨ (s.inputs = [] ∧ rest = [])) :
    step s = .next (complete { s with inputs := rest }) := by
  have hbusy : State.busy { s with inputs := rest } = true := (busy_iff _).mpr hrun
  rw [← engineTurn_of_busy hbusy]
  obtain hi | ⟨hi, rfl⟩ := hi
  · simp only [step, hi]
  · have hs : { s with inputs := [] } = s := by rw [← hi]
    simp only [step, hi, hs]

/-- Settles O34: the Engine's turn while RUNNING is the completion, by its guard. -/
theorem completionPublishesTheRun : Obligations.CompletionPublishesTheRun := by
  intro s rest hrun hi
  rw [step_of_running hrun hi]
  exact ⟨fun hempty => congrArg Host.Outcome.next (complete_of_empty hempty),
    fun hbytes => congrArg Host.Outcome.next (complete_of_nonempty hbytes)⟩

theorem complete_shows (s : State) : (complete s).phase = .idle ∧ (complete s).done = true ∧
    (complete s).outLen = if s.byteCount = 0#32 then 0#32 else 128#32 := by
  by_cases h : s.byteCount = 0#32
  · rw [complete_of_empty h, if_pos h]
    exact ⟨rfl, rfl, rfl⟩
  · rw [complete_of_nonempty h, if_neg h]
    exact ⟨rfl, rfl, rfl⟩

/-- A run of `j + k` steps is one of `k` steps from where the first `j` lead. -/
theorem run_add_of_run {j : Nat} (h : Host.Core.run Sys2Proof.core j s = .next t) (k : Nat) :
    Host.Core.run Sys2Proof.core (j + k) s = Host.Core.run Sys2Proof.core k t := by
  induction j generalizing s with
  | zero =>
    cases h
    rw [Nat.zero_add]
  | succ j ih =>
    obtain ⟨u, hu⟩ := everyStepAnswersANextState s
    rw [run_succ_of_step hu] at h
    rw [Nat.add_right_comm, run_succ_of_step hu, ih h]

/-- Settles O49: the listed accesses leave the run as it is, and the step after them completes it. -/
theorem everyRunCompletes : Obligations.EveryRunCompletes := by
  intro es s hrun hes
  obtain ⟨u, hu, hinputs, hkeep⟩ :=
    exists_run_keepsRun (s := { s with inputs := es }) hrun (List.append_nil es).symm hes
  have hstep := step_of_running (hkeep.phase.trans hrun) (.inr ⟨hinputs, rfl⟩)
  obtain ⟨hphase, hdone, hlen⟩ := complete_shows { u with inputs := [] }
  refine ⟨complete { u with inputs := [] }, ?_, hphase, hdone, ?_⟩
  · rw [run_add_of_run hu, run_succ_of_step hstep]
    rfl
  · rw [hlen]
    exact congrArg (fun c : Word => if c = 0#32 then 0#32 else 128#32) hkeep.byteCount

/-- Settles O55: the reset state is what a reset edge makes of it. -/
theorem resetStateMeetsTheInvariant : Obligations.ResetStateMeetsTheInvariant :=
  inv_resetRegisters State.reset

/-! ## The frame decides the results (R201, R219, R221) -/

/-- The two states show the same results. -/
def SameResults (s t : State) : Prop :=
  s.re = t.re ∧ s.im = t.im ∧ s.mag = t.mag ∧ s.out = t.out ∧ s.outLen = t.outLen

theorem exists_complete_of_nextCompletes (h : nextCompletes s = true) :
    ∃ rest, step s = .next (complete { s with inputs := rest }) := by
  unfold nextCompletes at h
  split at h
  next rest hi => exact ⟨rest, step_of_running ((busy_iff s).mp h) (.inl hi)⟩
  next hi => exact ⟨[], step_of_running ((busy_iff s).mp h) (.inr ⟨hi, rfl⟩)⟩
  next => cases h

theorem sameResults_of_frame_eq {s' t' : State} (hs : nextCompletes s = true) (ht : nextCompletes t = true)
    (hs0 : s.byteCount ≠ 0#32) (ht0 : t.byteCount ≠ 0#32)
    (hframe : frame s.byteCount s.sample = frame t.byteCount t.sample)
    (hs' : step s = .next s') (ht' : step t = .next t') : SameResults s' t' := by
  obtain ⟨es, hes⟩ := exists_complete_of_nextCompletes hs
  obtain ⟨et, het⟩ := exists_complete_of_nextCompletes ht
  cases hes.symm.trans hs'
  cases het.symm.trans ht'
  rw [complete_of_nonempty (s := { s with inputs := es }) hs0, complete_of_nonempty (s := { t with inputs := et }) ht0]
  dsimp only
  rw [hframe]
  exact ⟨rfl, rfl, rfl, rfl, rfl⟩

/-- Settles O42: a completion reads the frame only. -/
theorem runResultsDependOnlyOnTheFrame : Obligations.RunResultsDependOnlyOnTheFrame :=
  fun _ _ _ _ hs ht hs0 ht0 hframe => sameResults_of_frame_eq hs ht hs0 ht0 (eq_of_readAt hframe)

theorem readAt_frame (bc : Word) (sample : Vector Word 256) {i : Nat} (hi : i < 256) :
    readAt (frame bc sample) i = if i < min (bc.toNat / 4) 256 then readAt sample i else 0x00000000#32 :=
  readAt_ofFn _ hi

/-- Settles O43: the bytes after the last complete sample are no part of the frame. -/
theorem trailingBytesDoNotChangeTheResults : Obligations.TrailingBytesDoNotChangeTheResults := by
  intro k r s t s' t' hk hr hr4 hs ht hsk htk hsame
  have hframe : frame s.byteCount s.sample = frame t.byteCount t.sample := by
    refine eq_of_readAt fun i hi => ?_
    rw [readAt_frame _ _ hi, readAt_frame _ _ hi, show s.byteCount.toNat / 4 = k by omega,
      show t.byteCount.toNat / 4 = k by omega]
    split
    next hin => exact hsame i hin
    next => rfl
  refine sameResults_of_frame_eq hs ht (fun h0 => ?_) (fun h0 => ?_) hframe
  · rw [h0, BitVec.toNat_zero] at hsk
    omega
  · rw [h0, BitVec.toNat_zero] at htk
    omega

/-! ## The run's arrays, word by word (R201, R203, R204, R210) -/

theorem readAt_windowed (x : Vector Word 256) {i : Nat} (hi : i < 256) :
    readAt (windowed x) i = (fmul32 (readAt x i) (hann i)).w :=
  readAt_ofFn _ hi

theorem readAt_permuted_re (w : Vector Word 256) {i : Nat} (hi : i < 256) :
    readAt (permuted w).re i = readAt w (rev8 (BitVec.ofNat 8 i)).toNat :=
  readAt_ofFn _ hi

theorem readAt_permuted_im (w : Vector Word 256) (i : Nat) : readAt (permuted w).im i = 0x00000000#32 := by
  simp [permuted]

theorem readAt_magnitudes (z : Spectrum) {i : Nat} (hi : i < 128) :
    readAt (magnitudes z) i = (fmag32 (readAt z.re i) (readAt z.im i)).w :=
  readAt_ofFn _ hi

theorem readAt_bins (mag : Vector Word 128) {i : Nat} (hi : i < 128) : readAt (bins mag) i = bin mag i :=
  readAt_ofFn _ hi

/-- Settles O35: each array is built element by element. -/
theorem frameWindowAndBitReversal : Obligations.FrameWindowAndBitReversal := fun bc sample x z _ hi =>
  ⟨readAt_magnitudes z, readAt_frame bc sample hi, readAt_windowed x hi, readAt_permuted_re x hi,
    readAt_permuted_im x _⟩

end Sys2Proof.Machine
end

section
/-! PROOFS. The passes (R205 to R208): a butterfly touches two positions, the butterflies of a pass touch disjoint
pairs, so they commute and a pass is its butterflies side by side. -/

namespace Sys2Proof.Machine

/-! ## One butterfly (R206) -/

section
variable {e o : Nat} (c s : Word) (z : Spectrum)

theorem readAt_butterfly_re (e o j : Nat) : readAt (butterfly e o c s z).re j =
    if e = j ∧ j < 256 then (fadd32 (readAt z.re e) (twiddleRe c s (readAt z.re o) (readAt z.im o))).w
    else if o = j ∧ j < 256 then (fsub32 (readAt z.re e) (twiddleRe c s (readAt z.re o) (readAt z.im o))).w
    else readAt z.re j := by
  simp only [butterfly, readAt_writeAt]

theorem readAt_butterfly_im (e o j : Nat) : readAt (butterfly e o c s z).im j =
    if e = j ∧ j < 256 then (fadd32 (readAt z.im e) (twiddleIm c s (readAt z.re o) (readAt z.im o))).w
    else if o = j ∧ j < 256 then (fsub32 (readAt z.im e) (twiddleIm c s (readAt z.re o) (readAt z.im o))).w
    else readAt z.im j := by
  simp only [butterfly, readAt_writeAt]

theorem readAt_butterfly_of_ne {j : Nat} (he : j ≠ e) (ho : j ≠ o) :
    readAt (butterfly e o c s z).re j = readAt z.re j ∧ readAt (butterfly e o c s z).im j = readAt z.im j := by
  simp only [readAt_butterfly_re, readAt_butterfly_im, he.symm, ho.symm, false_and, if_false, and_self]

end

/-- Settles O36: the two writes are at different places, and nothing is read after the first. -/
theorem butterflyCombinesTheTwoPositions : Obligations.ButterflyCombinesTheTwoPositions := by
  intro e o c s z he ho hne
  refine ⟨?_, ?_, ?_, ?_, fun j => readAt_butterfly_of_ne c s z⟩
  · rw [readAt_butterfly_re, if_neg (fun h => hne h.1), if_pos ⟨rfl, ho⟩]
    rfl
  · rw [readAt_butterfly_im, if_neg (fun h => hne h.1), if_pos ⟨rfl, ho⟩]
    rfl
  · rw [readAt_butterfly_re, if_pos ⟨rfl, he⟩]
    rfl
  · rw [readAt_butterfly_im, if_pos ⟨rfl, he⟩]
    rfl

/-- Butterflies at disjoint pairs of positions commute: each reads and writes what the other leaves. -/
theorem butterfly_comm {e o e' o' : Nat} (hee : e ≠ e') (heo : e ≠ o') (hoe : o ≠ e') (hoo : o ≠ o')
    (c s c' s' : Word) (z : Spectrum) :
    butterfly e o c s (butterfly e' o' c' s' z) = butterfly e' o' c' s' (butterfly e o c s z) := by
  obtain ⟨hre, hie⟩ := readAt_butterfly_of_ne c' s' z hee heo
  obtain ⟨hro, hio⟩ := readAt_butterfly_of_ne c' s' z hoe hoo
  obtain ⟨hre', hie'⟩ := readAt_butterfly_of_ne c s z hee.symm hoe.symm
  obtain ⟨hro', hio'⟩ := readAt_butterfly_of_ne c s z heo.symm hoo.symm
  conv_lhs => rw [butterfly, hre, hie, hro, hio]
  conv_rhs => rw [butterfly, hre', hie', hro', hio']
  unfold butterfly
  dsimp only
  simp only [writeAt_comm _ _ _ hee, writeAt_comm _ _ _ heo, writeAt_comm _ _ _ hoe, writeAt_comm _ _ _ hoo]

/-! ## The pairs of a pass (R207) -/

/-- The two positions of the butterfly at group start `jk.1` and offset `jk.2`. -/
def positions (size : Nat) (jk : Nat × Nat) : List Nat := [jk.1 + jk.2, jk.1 + jk.2 + size / 2]

theorem mem_positions {size n : Nat} {jk : Nat × Nat} :
    n ∈ positions size jk ↔ n = jk.1 + jk.2 ∨ n = jk.1 + jk.2 + size / 2 := by
  simp [positions]

/-- The group start and the offset of the butterfly that touches position `n`. -/
def pairOf (size n : Nat) : Nat × Nat := (n / size * size, n % size % (size / 2))

section
variable {size : Nat} (hsize : size ∈ passSizes)
include hsize

theorem passSizes_arith :
    0 < size / 2 ∧ size = 2 * (size / 2) ∧ 256 / size * size = 256 ∧ 256 / size * (size / 2) = 128 := by
  revert size
  decide

theorem mem_passIndices_iff {jk : Nat × Nat} :
    jk ∈ passIndices size ↔ jk.1 % size = 0 ∧ jk.1 < 256 ∧ jk.2 < size / 2 := by
  obtain ⟨hpos, -, hgroups, -⟩ := passSizes_arith hsize
  obtain ⟨j0, k⟩ := jk
  simp only [passIndices, Config.fftSize, List.mem_flatMap, List.mem_map, List.mem_range, Prod.mk.injEq]
  constructor
  · rintro ⟨g, hg, k, hk, rfl, rfl⟩
    refine ⟨Nat.mul_mod_left g size, ?_, hk⟩
    calc g * size < 256 / size * size := Nat.mul_lt_mul_of_pos_right hg (by omega)
      _ = 256 := hgroups
  · rintro ⟨hstart, hlt, hk⟩
    have hj0 := Nat.div_mul_cancel (Nat.dvd_of_mod_eq_zero hstart)
    refine ⟨j0 / size, ?_, k, hk, hj0, rfl⟩
    exact Nat.lt_of_mul_lt_mul_right (a := size) (by rw [hj0, hgroups]; exact hlt)

/-- A position determines its butterfly. -/
theorem pairOf_of_mem_positions {jk : Nat × Nat} (hjk : jk ∈ passIndices size) {n : Nat}
    (hn : n ∈ positions size jk) : pairOf size n = jk := by
  obtain ⟨hpos, hhalf, -⟩ := passSizes_arith hsize
  obtain ⟨hstart, -, hk⟩ := (mem_passIndices_iff hsize).mp hjk
  obtain ⟨q, hq⟩ := Nat.dvd_of_mod_eq_zero hstart
  have hsplit {r : Nat} (hr : r < size) (hmod : r % (size / 2) = jk.2) : pairOf size (jk.1 + r) = jk := by
    rw [pairOf, hq, Nat.mul_add_div (by omega), Nat.mul_add_mod, Nat.div_eq_of_lt hr, Nat.mod_eq_of_lt hr, hmod,
      Nat.add_zero, Nat.mul_comm q, ← hq]
  obtain rfl | rfl := mem_positions.mp hn
  · exact hsplit (by omega) (Nat.mod_eq_of_lt hk)
  · rw [Nat.add_assoc]
    exact hsplit (by omega) (by rw [Nat.add_mod_right, Nat.mod_eq_of_lt hk])

theorem pairOf_mem_passIndices {n : Nat} (hn : n < 256) : pairOf size n ∈ passIndices size :=
  (mem_passIndices_iff hsize).mpr ⟨Nat.mul_mod_left _ _, (Nat.div_mul_le_self n size).trans_lt hn,
    Nat.mod_lt _ (passSizes_arith hsize).1⟩

theorem mem_positions_pairOf (n : Nat) : n ∈ positions size (pairOf size n) := by
  obtain ⟨hpos, hhalf, -⟩ := passSizes_arith hsize
  have hn := Nat.div_add_mod' n size
  have hr := Nat.mod_lt n (show size > 0 by omega)
  have hrem := Nat.div_add_mod (n % size) (size / 2)
  have hbelow : n % size / (size / 2) < 2 := Nat.div_lt_of_lt_mul (by omega)
  rw [mem_positions, pairOf]
  obtain hq | hq := Nat.le_one_iff_eq_zero_or_eq_one.mp (Nat.le_of_lt_succ hbelow)
  · rw [hq] at hrem
    exact .inl (by omega)
  · rw [hq] at hrem
    exact .inr (by omega)

theorem exists_pair {n : Nat} (hn : n < 256) : ∃ jk ∈ passIndices size, n ∈ positions size jk :=
  ⟨pairOf size n, pairOf_mem_passIndices hsize hn, mem_positions_pairOf hsize n⟩

/-- A group other than the first starts at `size` or beyond. -/
theorem groupStart_eq_zero_or_le {jk : Nat × Nat} (hjk : jk ∈ passIndices size) : jk.1 = 0 ∨ size ≤ jk.1 := by
  obtain ⟨hstart, -, -⟩ := (mem_passIndices_iff hsize).mp hjk
  exact or_iff_not_imp_right.mpr fun hlt => (Nat.mod_eq_of_lt (not_le.mp hlt)).symm.trans hstart

theorem length_passIndices : (passIndices size).length = 128 := by
  obtain ⟨-, -, -, hpairs⟩ := passSizes_arith hsize
  simp [passIndices, Config.fftSize, hpairs]

/-- The pairs of a pass cover the 256 positions once each: every position is in its pair, and there are 256. -/
theorem perm_range_positions : (List.range 256).Perm ((passIndices size).flatMap (positions size)) := by
  refine (List.subperm_of_subset List.nodup_range fun n hn => ?_).perm_of_length_le ?_
  · exact List.mem_flatMap.mpr (exists_pair hsize (List.mem_range.mp hn))
  · simp [positions, List.length_flatMap, length_passIndices hsize]

theorem lt_of_mem_positions {jk : Nat × Nat} (hjk : jk ∈ passIndices size) {n : Nat} (hn : n ∈ positions size jk) :
    n < 256 :=
  List.mem_range.mp ((perm_range_positions hsize).mem_iff.mpr (List.mem_flatMap.mpr ⟨jk, hjk, hn⟩))

theorem nodup_positions : ((passIndices size).flatMap (positions size)).Nodup :=
  (perm_range_positions hsize).nodup List.nodup_range

theorem nodup_passIndices : (passIndices size).Nodup := by
  refine (List.nodup_flatMap.mp (nodup_positions hsize)).2.imp fun {jk jk'} hdisjoint heq => ?_
  subst heq
  exact hdisjoint (mem_positions.mpr (.inl rfl)) (mem_positions.mpr (.inl rfl))

/-- A pass uses the entries 0 to 127 of the twiddle tables (R205). -/
theorem twiddleIndex_lt {jk : Nat × Nat} (hjk : jk ∈ passIndices size) : jk.2 * (256 / size) < 128 := by
  obtain ⟨-, -, hgroups, hpairs⟩ := passSizes_arith hsize
  obtain ⟨-, -, hk⟩ := (mem_passIndices_iff hsize).mp hjk
  have hstep : 0 < 256 / size := Nat.pos_of_ne_zero fun h => by simp [h] at hgroups
  calc jk.2 * (256 / size) < size / 2 * (256 / size) := Nat.mul_lt_mul_of_pos_right hk hstep
    _ = 128 := by rw [Nat.mul_comm, hpairs]

end

theorem analyse_eq_passes (x : Vector Word 256) : analyse x =
    pass (pass (pass (pass (pass (pass (pass (pass (permuted (windowed x)) 2) 4) 8) 16) 32) 64) 128) 256 := by
  simp only [analyse, transform, passSizes, List.foldl]

/-- Settles O37: a position lies in the pair of its group and offset alone, so the pairs cover the positions once. -/
theorem passesPairEveryPositionOnce : Obligations.PassesPairEveryPositionOnce := by
  refine ⟨rfl, analyse_eq_passes, fun size hsize =>
    ⟨length_passIndices hsize, fun n hn => ?_, fun jk hjk => ?_, fun _ _ _ => rfl⟩⟩
  · exact ((perm_range_positions hsize).symm.count_eq n).trans
      (List.count_eq_one_of_mem List.nodup_range (List.mem_range.mpr hn))
  · obtain ⟨hstart, -, hk⟩ := (mem_passIndices_iff hsize).mp hjk
    exact ⟨hk, hstart, twiddleIndex_lt hsize hjk⟩

/-! ## A pass (R207, R208) -/

/-- Butterflies at other positions than `n` leave it as it was. -/
theorem readAt_foldl_passButterfly {size n : Nat} {jks : List (Nat × Nat)}
    (h : ∀ jk ∈ jks, n ∉ positions size jk) (z : Spectrum) :
    readAt (jks.foldl (passButterfly size) z).re n = readAt z.re n ∧
      readAt (jks.foldl (passButterfly size) z).im n = readAt z.im n := by
  refine List.foldlRecOn jks (passButterfly size)
    (motive := fun z' => readAt z'.re n = readAt z.re n ∧ readAt z'.im n = readAt z.im n) ⟨rfl, rfl⟩ ?_
  rintro z' ⟨hre, him⟩ jk hjk
  obtain ⟨he, ho⟩ := not_or.mp (mt mem_positions.mpr (h jk hjk))
  obtain ⟨hre', him'⟩ := readAt_butterfly_of_ne _ _ z' he ho
  exact ⟨hre'.trans hre, him'.trans him⟩

section
variable {size : Nat} (hsize : size ∈ passSizes)
include hsize

theorem passButterfly_comm {jk jk' : Nat × Nat} (hjk : jk ∈ passIndices size) (hjk' : jk' ∈ passIndices size)
    (z : Spectrum) :
    passButterfly size (passButterfly size z jk) jk' = passButterfly size (passButterfly size z jk') jk := by
  by_cases heq : jk' = jk
  · rw [heq]
  have hne {n n' : Nat} (hn : n ∈ positions size jk') (hn' : n' ∈ positions size jk) : n ≠ n' := by
    rintro rfl
    exact heq ((pairOf_of_mem_positions hsize hjk' hn).symm.trans (pairOf_of_mem_positions hsize hjk hn'))
  have he (jk : Nat × Nat) := mem_positions (size := size) (jk := jk).mpr (.inl rfl)
  have ho (jk : Nat × Nat) := mem_positions (size := size) (jk := jk).mpr (.inr rfl)
  exact butterfly_comm (hne (he _) (he _)) (hne (he _) (ho _)) (hne (ho _) (he _)) (hne (ho _) (ho _)) _ _ _ _ z

theorem foldl_passButterfly_of_perm {order : List (Nat × Nat)} (h : order.Perm (passIndices size)) (z : Spectrum) :
    order.foldl (passButterfly size) z = pass z size :=
  h.foldl_eq' (fun _ hjk _ hjk' z => passButterfly_comm hsize (h.subset hjk) (h.subset hjk') z) z

/-- At the positions of a pair a pass does what the pair's butterfly does: it may come first, and no other touches
them. -/
theorem readAt_pass {jk : Nat × Nat} (hjk : jk ∈ passIndices size) {n : Nat} (hn : n ∈ positions size jk)
    (z : Spectrum) : readAt (pass z size).re n = readAt (passButterfly size z jk).re n ∧
      readAt (pass z size).im n = readAt (passButterfly size z jk).im n := by
  rw [← foldl_passButterfly_of_perm hsize (List.perm_cons_erase hjk).symm]
  refine readAt_foldl_passButterfly (fun jk' hjk' hn' => ?_) (passButterfly size z jk)
  obtain ⟨hne, hmem⟩ := (nodup_passIndices hsize).mem_erase_iff.mp hjk'
  exact hne ((pairOf_of_mem_positions hsize hmem hn').symm.trans (pairOf_of_mem_positions hsize hjk hn))

end

/-- Settles O38: the butterflies of a pass commute. -/
theorem orderWithinAPassDoesNotMatter : Obligations.OrderWithinAPassDoesNotMatter :=
  fun _ _ z hsize h => foldl_passButterfly_of_perm hsize h z

/-- Settles O59: a pass does at each pair what the pair's butterfly does to the words before the pass. -/
theorem eachPassCombinesEveryPairWithItsTwiddle : Obligations.EachPassCombinesEveryPairWithItsTwiddle := by
  intro size j0 k z hsize hstart hlt hk
  have hjk : (j0, k) ∈ passIndices size := (mem_passIndices_iff hsize).mpr ⟨hstart, hlt, hk⟩
  obtain ⟨hre, hie⟩ := readAt_pass hsize hjk (mem_positions.mpr (.inl rfl)) z
  obtain ⟨hro, hio⟩ := readAt_pass hsize hjk (mem_positions.mpr (.inr rfl)) z
  have ho := lt_of_mem_positions hsize hjk (mem_positions.mpr (.inr rfl))
  obtain ⟨hpos, -⟩ := passSizes_arith hsize
  obtain ⟨hbro, hbio, hbre, hbie, -⟩ := butterflyCombinesTheTwoPositions (j0 + k) (j0 + k + size / 2)
    (twc (k * (256 / size))) (tws (k * (256 / size))) z (by omega) ho (by omega)
  exact ⟨hre.trans hbre, hie.trans hbie, hro.trans hbro, hio.trans hbio⟩

end Sys2Proof.Machine
end

section
/-! PROOFS. The bin mapper (R211 to R214, R218, R242): its ranges tile the magnitudes, and a bin of one or two
magnitudes is their clamped mean, since the steps with `+0` and with 1.0 change no magnitude. -/

namespace Sys2Proof.Machine

/-! ## The ranges (R211, R218, R242) -/

/-- The clip to 128 never applies (R211). -/
theorem binEnd_eq_binStart_succ {i : Nat} (hi : i < 128) : binEnd i = binStart (i + 1) := by
  have hsquare : (i + 1) * (i + 1) ≤ 128 * 128 := Nat.mul_self_le_mul_self hi
  exact min_eq_left (by omega)

theorem binStart_le_binEnd {i : Nat} (hi : i < 128) : binStart i ≤ binEnd i := by
  rw [binEnd_eq_binStart_succ hi]
  exact Nat.div_le_div_right (Nat.mul_self_le_mul_self (Nat.le_succ i))

/-- Squares that follow each other below `128²` are less than `2·128` apart. -/
theorem binCount_le_two {i : Nat} (hi : i < 128) : binCount i ≤ 2 := by
  have hsquare : (i + 1) * (i + 1) = i * i + 2 * i + 1 := by ring
  rw [binCount, binEnd_eq_binStart_succ hi, binStart, binStart, hsquare]
  omega

theorem binStart_add_binCount_le {i : Nat} (hi : i < 128) : binStart i + binCount i ≤ 128 := by
  have hend : binEnd i ≤ 128 := min_le_right _ _
  have hstart := binStart_le_binEnd hi
  unfold binCount
  omega

/-- Settles O39: each range ends where the next begins; the bins of each count are counted. -/
theorem binRangesTileTheMagnitudes : Obligations.BinRangesTileTheMagnitudes :=
  ⟨rfl, rfl, fun _ hi => (binEnd_eq_binStart_succ (by omega)).symm,
    fun _ hi => ⟨binStart_le_binEnd hi, min_le_right _ _, binCount_le_two hi⟩,
    by decide +kernel, by decide +kernel, by decide +kernel⟩

/-! ## A finite word is its value (R170) -/

/-- A word is its sign, significand and unit. -/
theorem eq_of_significand_unitExp {a b : Word} (hsign : fpSign a = fpSign b) (hsig : significand a = significand b)
    (hunit : unitExp a = unitExp b) : a = b := by
  have ha := (fpFrac a).isLt
  have hb := (fpFrac b).isLt
  have hfields : (fpExp a).toNat = (fpExp b).toNat ∧ (fpFrac a).toNat = (fpFrac b).toNat := by
    simp only [significand, unitExp, ← BitVec.toNat_inj, BitVec.toNat_ofNat] at hsig hunit
    split_ifs at hsig hunit <;> omega
  rw [eq_packWord a, eq_packWord b, hsign, hfields.1, hfields.2]

/-- Significands are normalized: a unit above the least one has a full significand. -/
theorem le_significand_of_lt_unitExp {w : Word} (h : -149 < unitExp w) : 2 ^ 23 ≤ significand w := by
  unfold unitExp at h
  unfold significand
  split_ifs at h ⊢ <;> omega

/-- Of two words of one magnitude the first has no smaller unit: the second's significand would not fit into it. -/
theorem unitExp_le_of_value_eq {a b : Word}
    (h : significand a * (2 : ℝ) ^ unitExp a = significand b * 2 ^ unitExp b) : unitExp b ≤ unitExp a := by
  by_contra hlt
  rw [not_le] at hlt
  have hfull : ((2 ^ 23 : ℕ) : ℝ) ≤ significand b := by
    exact_mod_cast le_significand_of_lt_unitExp ((unitExp_ge a).trans_lt hlt)
  have hbound : (significand a : ℝ) < (2 ^ 24 : ℕ) := by exact_mod_cast significand_lt a
  have hunits : (2 : ℝ) ^ (unitExp a + 1) ≤ 2 ^ unitExp b := zpow_le_zpow_right₀ one_le_two hlt
  refine absurd h (ne_of_lt ?_)
  calc (significand a : ℝ) * 2 ^ unitExp a < (2 ^ 24 : ℕ) * 2 ^ unitExp a := by gcongr
    _ = (2 ^ 23 : ℕ) * 2 ^ (unitExp a + 1) := by rw [zpow_add_one₀ two_ne_zero]; norm_num; ring
    _ ≤ significand b * 2 ^ unitExp b := by gcongr

theorem abs_val (w : Word) : |((val w : ℚ) : ℝ)| = significand w * (2 : ℝ) ^ unitExp w := by
  rw [val_eq, abs_signFactor_mul, abs_of_nonneg (by positivity)]

theorem val_ne_zero_iff (w : Word) : val w ≠ 0 ↔ isZero w = false := by
  refine ⟨fun h => Bool.eq_false_of_not_eq_true (mt val_eq_zero_of_isZero h), fun h h0 => ?_⟩
  have hsig := significand_pos h
  have hpos : (0 : ℝ) < |((val w : ℚ) : ℝ)| := by rw [abs_val]; positivity
  simp [h0] at hpos

theorem val_pos_iff {w : Word} (h : isZero w = false) : 0 < val w ↔ fpSign w = false :=
  ⟨fun hpos => Bool.eq_false_of_not_eq_true fun hsign => (val_nonpos (.inr hsign)).not_gt hpos, val_pos h⟩

/-- A nonzero value has one word. -/
theorem eq_of_val_eq {a b : Word} (ha : isZero a = false) (h : val a = val b) : a = b := by
  have hb : isZero b = false := by rwa [← val_ne_zero_iff, ← h, val_ne_zero_iff]
  have hsign : fpSign a = fpSign b := by
    rw [Bool.eq_iff_iff, ← not_iff_not, Bool.not_eq_true, Bool.not_eq_true, ← val_pos_iff ha, ← val_pos_iff hb, h]
  have habs : significand a * (2 : ℝ) ^ unitExp a = significand b * 2 ^ unitExp b := by rw [← abs_val, h, abs_val]
  have hunit : unitExp a = unitExp b := (unitExp_le_of_value_eq habs.symm).antisymm (unitExp_le_of_value_eq habs)
  rw [hunit] at habs
  refine eq_of_significand_unitExp hsign ?_ hunit
  exact_mod_cast mul_right_cancel₀ (by positivity) habs

theorem abs_val_lt_overflowBound {w : Word} (hw : isFinite w = true) : |((val w : ℚ) : ℝ)| < overflowBound := by
  have hsig : (significand w : ℝ) ≤ (2 ^ 24 - 1 : ℕ) := by exact_mod_cast Nat.le_sub_one_of_lt (significand_lt w)
  have hunit : (2 : ℝ) ^ unitExp w ≤ 2 ^ (104 : ℤ) := zpow_le_zpow_right₀ one_le_two (unitExp_le hw)
  rw [abs_val]
  calc (significand w : ℝ) * 2 ^ unitExp w ≤ (2 ^ 24 - 1 : ℕ) * 2 ^ (104 : ℤ) := by gcongr
    _ < overflowBound := by norm_num [overflowBound]

/-- A finite nonzero word that is the exact result is the rounded result: no word is nearer. -/
theorem w_eq_of_correctlyRounded_val {w : Word} {r : FpResult} (hw : isFinite w = true) (hzero : isZero w = false)
    (h : CorrectlyRounded ((val w : ℚ) : ℝ) r) : r.w = w := by
  obtain ⟨⟨-, hnearest, -⟩, -⟩ := h.2 (abs_val_lt_overflowBound hw)
  have hdist := hnearest w hw
  rw [sub_self, abs_zero] at hdist
  have hval : ((val r.w : ℚ) : ℝ) = ((val w : ℚ) : ℝ) := sub_eq_zero.mp (abs_nonpos_iff.mp hdist)
  exact (eq_of_val_eq hzero (by exact_mod_cast hval.symm)).symm

/-! ## Steps that change no magnitude (R212) -/

/-- A magnitude is the canonical NaN, `+inf`, `+0` or a positive finite word (R210). -/
theorem isMagnitude_cases {m : Word} (hm : isMagnitude m = true) :
    m = qNaN ∨ m = infWord false ∨ m = zeroWord false ∨ (isFinite m = true ∧ isZero m = false) := by
  have hsign := fpSign_of_isMagnitude hm
  have hfields := toNat_eq_fields m
  simp only [isMagnitude, Bool.or_eq_true, decide_eq_true_eq, beq_iff_eq, BitVec.le_def] at hm
  obtain hle | hnan := hm
  · by_cases hfin : isFinite m = true
    · by_cases hzero : isZero m = true
      · exact .inr (.inr (.inl (hsign ▸ eq_zeroWord_of_isZero hzero)))
      · exact .inr (.inr (.inr ⟨hfin, Bool.eq_false_of_not_eq_true hzero⟩))
    · rw [isFinite_iff] at hfin
      refine .inr (.inl (BitVec.eq_of_toNat_eq ?_))
      rw [hsign, Bool.toNat_false] at hfields
      have hinf : (infWord false).toNat = 255 * 2 ^ 23 := by decide
      rw [BitVec.toNat_ofNat] at hle
      omega
  · exact .inl hnan

/-- `+0` plus a magnitude is the magnitude. -/
theorem fadd32_zero_left {m : Word} (hm : isMagnitude m = true) : (fadd32 0x00000000#32 m).w = m := by
  obtain rfl | rfl | rfl | ⟨hfin, hzero⟩ := isMagnitude_cases hm
  · decide
  · decide
  · decide
  · refine w_eq_of_correctlyRounded_val hfin hzero ?_
    have hround := correctlyRounded_fadd32 (a := 0x00000000#32) (by decide) hfin
    rwa [val_eq_zero_of_isZero (by decide), Rat.cast_zero, zero_add] at hround

theorem val_oneWord : val oneWord = 1 := by
  have hsign : fpSign oneWord = false := by decide
  have hsig : significand oneWord = 2 ^ 23 := by decide
  have hunit : unitExp oneWord = -23 := by decide
  rw [val, hsign, hsig, hunit]
  norm_num

/-- A magnitude over 1.0 is the magnitude. -/
theorem fdiv32_one {m : Word} (hm : isMagnitude m = true) : (fdiv32 m oneWord).w = m := by
  obtain rfl | rfl | rfl | ⟨hfin, hzero⟩ := isMagnitude_cases hm
  · decide
  · decide
  · decide +kernel
  · refine w_eq_of_correctlyRounded_val hfin hzero ?_
    have hround := quotientIsCorrectlyRounded m oneWord hfin (by decide) (by decide)
    rwa [val_oneWord, Rat.cast_one, div_one] at hround

/-! ## A bin by its count -/

theorem u2f_one : u2f 1 = oneWord := by decide +kernel

theorem u2f_two : u2f 2 = 0x40000000#32 := by decide +kernel

theorem bin_of_count_zero {mag : Vector Word 128} {i : Nat} (h : binCount i = 0) : bin mag i = 0x00000000#32 :=
  if_pos h

theorem bin_of_count_one {mag : Vector Word 128} {i : Nat} (h : binCount i = 1)
    (hm : isMagnitude (readAt mag (binStart i)) = true) :
    bin mag i = (fclamp01 (fmul32 (readAt mag (binStart i)) fourWord).w).w := by
  simp [bin, h, sumFrom, u2f_one, fadd32_zero_left hm, fdiv32_one hm]

theorem bin_of_count_two {mag : Vector Word 128} {i : Nat} (h : binCount i = 2)
    (hm : isMagnitude (readAt mag (binStart i)) = true) :
    bin mag i = (fclamp01 (fmul32 (fdiv32 (fadd32 (readAt mag (binStart i)) (readAt mag (binStart i + 1))).w
      0x40000000#32).w fourWord).w).w := by
  simp [bin, h, sumFrom, u2f_two, fadd32_zero_left hm]

/-- Settles O40: `+0` plus a magnitude and a magnitude over 1.0 are the magnitude. -/
theorem outputBinByCount : Obligations.OutputBinByCount := by
  intro mag i hi hmag
  have hend := binStart_add_binCount_le hi
  rw [readAt_bins mag hi]
  exact ⟨bin_of_count_zero, fun h => bin_of_count_one h (hmag _ (by omega)),
    fun h => bin_of_count_two h (hmag _ (by omega))⟩

end Sys2Proof.Machine
end

section
/-! PROOFS. The signs a run does not show (R175, R217, R222): words that agree up to the sign of zeros, or are negatives
of each other, stay so through products and sums, so through the passes, and a magnitude sees neither. -/

namespace Sys2Proof.Machine

/-! ## Words of one magnitude -/

theorem isZero_flipSign (w : Word) : isZero (flipSign w) = isZero w := by
  simp only [isZero, fpExp_flipSign, fpFrac_flipSign]

/-- `a` and `b` have the same exponent and fraction. Their signs are equal or, with `flip`, opposite; a zero may have
either sign, and NaNs are equal. -/
structure SignTwin (flip : Bool) (a b : Word) : Prop where
  exp : fpExp a = fpExp b
  frac : fpFrac a = fpFrac b
  sign : isZero b = false → fpSign a = (fpSign b ^^ (flip && !isNaN b))

namespace SignTwin

variable {flip flip' : Bool} {a a' b b' : Word}

theorem refl (a : Word) : SignTwin false a a := ⟨rfl, rfl, fun _ => by simp⟩

theorem isNaN_eq (h : SignTwin flip a b) : isNaN a = isNaN b := by simp only [isNaN, h.exp, h.frac]
theorem isInf_eq (h : SignTwin flip a b) : isInf a = isInf b := by simp only [isInf, h.exp, h.frac]
theorem isZero_eq (h : SignTwin flip a b) : isZero a = isZero b := by simp only [isZero, h.exp, h.frac]
theorem isSNaN_eq (h : SignTwin flip a b) : isSNaN a = isSNaN b := by simp only [isSNaN, h.isNaN_eq, h.frac]
theorem significand_eq (h : SignTwin flip a b) : significand a = significand b := by
  simp only [significand, h.exp, h.frac]
theorem unitExp_eq (h : SignTwin flip a b) : unitExp a = unitExp b := by simp only [unitExp, h.exp]

theorem sign_of_isNaN (h : SignTwin flip a b) (hnan : isNaN b = true) : fpSign a = fpSign b := by
  have hzero : isZero b = false := Bool.eq_false_of_not_eq_true fun h0 => by simp [isNaN_of_isZero h0] at hnan
  simp [h.sign hzero, hnan]

theorem sign_of_not_isNaN (h : SignTwin flip a b) (hnan : isNaN b = false) (hzero : isZero b = false) :
    fpSign a = (fpSign b ^^ flip) := by
  simp [h.sign hzero, hnan]

theorem eq_of_sign (h : SignTwin flip a b) (hsign : fpSign a = fpSign b) : a = b := by
  rw [eq_packWord a, eq_packWord b, h.exp, h.frac, hsign]

theorem of_isZero (ha : isZero a = true) (hb : isZero b = true) : SignTwin flip a b := by
  have hfields {w : Word} (h : isZero w = true) : fpExp w = 0#8 ∧ fpFrac w = 0#23 := by simpa [isZero] using h
  obtain ⟨hexpa, hfraca⟩ := hfields ha
  obtain ⟨hexpb, hfracb⟩ := hfields hb
  exact ⟨hexpa.trans hexpb.symm, hfraca.trans hfracb.symm, fun h => by simp [hb] at h⟩

theorem of_isNaN (h : isNaN a = true) : SignTwin flip a a := ⟨rfl, rfl, fun _ => by simp [h]⟩

theorem false_iff : SignTwin false a b ↔ sameUpToZeroSign a b := by
  constructor
  · intro h
    by_cases hzero : isZero b = true
    · exact .inr ⟨h.isZero_eq.trans hzero, hzero⟩
    · exact .inl (h.eq_of_sign (by simpa using h.sign (Bool.eq_false_of_not_eq_true hzero)))
  · rintro (rfl | ⟨ha, hb⟩)
    · exact refl a
    · exact of_isZero ha hb

theorem true_iff_of_not_isNaN (hnan : isNaN b = false) :
    SignTwin true a b ↔ SignTwin false a (flipSign b) := by
  constructor
  · rintro ⟨hexp, hfrac, hsign⟩
    exact ⟨by rw [hexp, fpExp_flipSign], by rw [hfrac, fpFrac_flipSign],
      fun h => by simp [hsign ((isZero_flipSign b).symm.trans h), hnan]⟩
  · rintro ⟨hexp, hfrac, hsign⟩
    exact ⟨by rw [hexp, fpExp_flipSign], by rw [hfrac, fpFrac_flipSign],
      fun h => by simp [hsign ((isZero_flipSign b).trans h), hnan]⟩

theorem true_iff : SignTwin true a b ↔ negatedUpToZeroSign a b := by
  unfold negatedUpToZeroSign
  split
  next hnan =>
    refine ⟨fun h => h.eq_of_sign (h.sign_of_isNaN hnan), ?_⟩
    rintro rfl
    exact of_isNaN hnan
  next hnan => rw [true_iff_of_not_isNaN (Bool.eq_false_of_not_eq_true hnan), false_iff]

end SignTwin

section
variable {flip flip' : Bool} {a a' b b' : Word}

theorem signTwin_qNaN : SignTwin flip qNaN qNaN := .of_isNaN (by decide)

theorem signTwin_flipSign_left (h : isNaN a = false) : SignTwin true (flipSign a) a :=
  ⟨fpExp_flipSign a, fpFrac_flipSign a, fun _ => by simp [h]⟩

theorem signTwin_flipSign (h : SignTwin flip a b) : SignTwin flip (flipSign a) (flipSign b) where
  exp := by rw [fpExp_flipSign, fpExp_flipSign, h.exp]
  frac := by rw [fpFrac_flipSign, fpFrac_flipSign, h.frac]
  sign hzero := by
    rw [isZero_flipSign] at hzero
    rw [fpSign_flipSign, fpSign_flipSign, isNaN_flipSign, h.sign hzero, Bool.not_xor]

/-- Beyond an array every word is `+0` (log 16). -/
theorem signTwin_readAt_of_ge {n : Nat} (v w : Vector Word n) {i : Nat} (hi : n ≤ i) :
    SignTwin flip (readAt v i) (readAt w i) := by
  rw [readAt_of_ge v hi, readAt_of_ge w hi]
  exact .of_isZero (by decide) (by decide)

/-! ## Rounding (R172) -/

theorem fpFrac_packWord_eq (s : Bool) (e f : Nat) : fpFrac (packWord s e f) = BitVec.ofNat 23 f := by
  refine BitVec.eq_of_toNat_eq ?_
  simp only [fpFrac, packWord, BitVec.extractLsb_toNat, Nat.shiftRight_eq_div_pow, toNat_append_eq_add,
    BitVec.toNat_ofNat]
  omega

theorem signTwin_packWord {s t : Bool} {e f : Nat} (hnan : isNaN (packWord t e f) = false) (hsign : s = (t ^^ flip)) :
    SignTwin flip (packWord s e f) (packWord t e f) where
  exp := by rw [fpExp_packWord_eq, fpExp_packWord_eq]
  frac := by rw [fpFrac_packWord_eq, fpFrac_packWord_eq]
  sign _ := by simp [hnan, hsign]

theorem exists_packWord_finishRound (N : Nat) (q : Int) (inexact tiny : Bool) :
    ∃ e f, ∀ s, (finishRound s N q inexact tiny).w = packWord s e f := by
  unfold finishRound
  generalize (if N = 2 ^ 24 then q + 1 else q) = q', (if N = 2 ^ 24 then 2 ^ 23 else N) = N'
  dsimp only
  split
  · exact ⟨255, 0, fun _ => rfl⟩
  · split
    · exact ⟨_, _, fun _ => rfl⟩
    · exact ⟨_, _, fun _ => rfl⟩

/-- Rounding puts the sign on a word that does not depend on it. -/
theorem exists_packWord_roundFp (m : Magnitude) : ∃ e f, ∀ s, (roundFp s m).w = packWord s e f := by
  unfold roundFp
  split
  · exact ⟨0, 0, fun _ => rfl⟩
  · exact exists_packWord_finishRound _ _ _ _

theorem isZero_roundFp_zero (s : Bool) (x : Int) : isZero (roundFp s ⟨0, x, false⟩).w = true := by
  rw [roundFp, if_pos ⟨rfl, rfl⟩]
  cases s <;> decide

/-- One magnitude rounded with two signs; if it is zero, any two signs. -/
theorem signTwin_roundFp {n : Nat} {x : Int} {s t : Bool} (h : n ≠ 0 → s = (t ^^ flip)) :
    SignTwin flip (roundFp s ⟨n, x, false⟩).w (roundFp t ⟨n, x, false⟩).w := by
  by_cases hn : n = 0
  · rw [hn]
    exact .of_isZero (isZero_roundFp_zero s x) (isZero_roundFp_zero t x)
  · obtain ⟨e, f, hword⟩ := exists_packWord_roundFp ⟨n, x, false⟩
    have hnan := isNaN_roundFp t ⟨n, x, false⟩
    rw [hword] at hnan
    rw [hword, hword]
    exact signTwin_packWord hnan (h hn)

/-! ## Products and sums (R176 to R178) -/

theorem SignTwin.xor_sign (ha : SignTwin flip a a') (hb : SignTwin flip' b b') (hnana : isNaN a' = false)
    (hnanb : isNaN b' = false) (hzeroa : isZero a' = false) (hzerob : isZero b' = false) :
    (fpSign a ^^ fpSign b) = ((fpSign a' ^^ fpSign b') ^^ (flip ^^ flip')) := by
  rw [ha.sign_of_not_isNaN hnana hzeroa, hb.sign_of_not_isNaN hnanb hzerob, Bool.xor_assoc, Bool.xor_assoc,
    Bool.xor_left_comm flip]

/-- The sign of a product is free only where the product is zero. -/
theorem signTwin_fmul32 (ha : SignTwin flip a a') (hb : SignTwin flip' b b') :
    SignTwin (flip ^^ flip') (fmul32 a b).w (fmul32 a' b').w := by
  unfold fmul32
  simp only [ha.isNaN_eq, hb.isNaN_eq, ha.isSNaN_eq, hb.isSNaN_eq, ha.isInf_eq, hb.isInf_eq, ha.isZero_eq,
    hb.isZero_eq, ha.significand_eq, hb.significand_eq, ha.unitExp_eq, hb.unitExp_eq]
  split_ifs with hnan hinf hzero
  · exact signTwin_qNaN
  · exact signTwin_qNaN
  all_goals
    simp only [Bool.or_eq_true, not_or, Bool.not_eq_true] at hnan
    obtain ⟨hnana, hnanb⟩ := hnan
  · simp only [Bool.or_eq_true, not_or, Bool.not_eq_true] at hzero
    exact signTwin_packWord (isNaN_infWord _) (ha.xor_sign hb hnana hnanb hzero.1 hzero.2)
  · refine signTwin_roundFp fun hn => ha.xor_sign hb hnana hnanb ?_ ?_
    · exact Bool.eq_false_of_not_eq_true fun h => hn (by rw [(significand_eq_zero_iff a').mpr h, Nat.zero_mul])
    · exact Bool.eq_false_of_not_eq_true fun h => hn (by rw [(significand_eq_zero_iff b').mpr h, Nat.mul_zero])

theorem SignTwin.alignedInt_eq (h : SignTwin flip a b) (hnan : isNaN b = false) (x : Int) :
    alignedInt a x = if flip then -alignedInt b x else alignedInt b x := by
  by_cases hzero : isZero b = true
  · have hsig := (significand_eq_zero_iff b).mpr hzero
    simp [alignedInt, h.significand_eq, hsig]
  · have hsign := h.sign_of_not_isNaN hnan (Bool.eq_false_of_not_eq_true hzero)
    cases flip <;> cases hb : fpSign b <;> simp [alignedInt, h.significand_eq, h.unitExp_eq, hsign, hb]

theorem SignTwin.exactSum_eq (ha : SignTwin flip a a') (hb : SignTwin flip b b') (hnana : isNaN a' = false)
    (hnanb : isNaN b' = false) : exactSum a b = if flip then -exactSum a' b' else exactSum a' b' := by
  unfold exactSum sumExp
  rw [ha.unitExp_eq, hb.unitExp_eq, ha.alignedInt_eq hnana, hb.alignedInt_eq hnanb]
  cases flip
  · rfl
  · exact (neg_add _ _).symm

theorem isZero_zeroWord (s : Bool) : isZero (zeroWord s) = true := by cases s <;> decide

/-- Infinities are opposite where their twins are. -/
theorem SignTwin.inf_opposite_eq (ha : SignTwin flip a a') (hb : SignTwin flip b b') (hnana : isNaN a' = false)
    (hnanb : isNaN b' = false) :
    (isInf a' && isInf b' && (fpSign a != fpSign b)) = (isInf a' && isInf b' && (fpSign a' != fpSign b')) := by
  by_cases hinf : isInf a' = true ∧ isInf b' = true
  · rw [ha.sign_of_not_isNaN hnana (isZero_of_isInf hinf.1), hb.sign_of_not_isNaN hnanb (isZero_of_isInf hinf.2)]
    cases flip <;> simp
  · simp only [not_and_or, Bool.not_eq_true] at hinf
    obtain h | h := hinf <;> simp [h]

/-- The sign of a sum is free only where the sum is zero; the exact sum of negatives is the negative exact sum. -/
theorem signTwin_fadd32 (ha : SignTwin flip a a') (hb : SignTwin flip b b') :
    SignTwin flip (fadd32 a b).w (fadd32 a' b').w := by
  by_cases hnan : (isNaN a' || isNaN b') = true
  · rw [fadd32_of_isNaN hnan, fadd32_of_isNaN (by rwa [ha.isNaN_eq, hb.isNaN_eq])]
    exact signTwin_qNaN
  simp only [Bool.or_eq_true, not_or, Bool.not_eq_true] at hnan
  obtain ⟨hnana, hnanb⟩ := hnan
  have hsum := ha.exactSum_eq hb hnana hnanb
  have hexp : sumExp a b = sumExp a' b' := by rw [sumExp, sumExp, ha.unitExp_eq, hb.unitExp_eq]
  have hzero : exactSum a b = 0 ↔ exactSum a' b' = 0 := by rw [hsum]; split <;> simp
  have habs : (exactSum a b).natAbs = (exactSum a' b').natAbs := by rw [hsum]; split <;> simp
  unfold fadd32
  simp only [ha.isNaN_eq, hb.isNaN_eq, ha.isInf_eq, hb.isInf_eq, hnana, hnanb,
    ha.inf_opposite_eq hb hnana hnanb, hzero, habs, hexp]
  split_ifs with h hinfa hinfb hsum0
  · cases h
  · exact signTwin_qNaN
  · exact ha
  · exact hb
  · exact .of_isZero (isZero_zeroWord _) (isZero_zeroWord _)
  · refine signTwin_roundFp fun hn => ?_
    have hne : exactSum a' b' ≠ 0 := Int.natAbs_ne_zero.mp hn
    rw [hsum]
    cases flip
    · simp
    · rw [if_pos rfl, Bool.xor_true, Bool.eq_not, ne_eq, decide_eq_decide]
      omega

theorem signTwin_fsub32 (ha : SignTwin flip a a') (hb : SignTwin flip b b') :
    SignTwin flip (fsub32 a b).w (fsub32 a' b').w :=
  signTwin_fadd32 ha (signTwin_flipSign hb)

/-! ## Magnitudes (R181) -/

theorem SignTwin.fmul32_self_eq (h : SignTwin flip a b) : fmul32 a a = fmul32 b b := by
  simp only [fmul32, Bool.xor_self, h.isNaN_eq, h.isSNaN_eq, h.isInf_eq, h.isZero_eq, h.significand_eq, h.unitExp_eq]

/-- A magnitude is made of two squares, which see no sign. -/
theorem fmag32_eq_of_signTwin (ha : SignTwin flip a a') (hb : SignTwin flip' b b') : fmag32 a b = fmag32 a' b' := by
  simp only [fmag32, ha.fmul32_self_eq, hb.fmul32_self_eq]

end

end Sys2Proof.Machine
end

section
/-! PROOFS. Runs that differ in what a run does not show (R217, R220, R222): the sign of the twiddles' sines, the signs
of zeros, and the first sample, which the window multiplies by `+0`. -/

namespace Sys2Proof.Machine

/-! ## Butterflies of twins -/

section
variable {flip : Bool} {c c' s s' : Word} {z z' : Spectrum} (hc : SignTwin false c c') (hs : SignTwin flip s s')
include hc hs

/-- Where the sines and the imaginary parts change sign together, the real part of `W·x[o]` does not. -/
theorem signTwin_twiddleRe {r r' i i' : Word} (hr : SignTwin false r r') (hi : SignTwin flip i i') :
    SignTwin false (twiddleRe c s r i) (twiddleRe c' s' r' i') := by
  have him := signTwin_fmul32 hs hi
  rw [Bool.xor_self] at him
  exact signTwin_fadd32 (signTwin_fmul32 hc hr) him

/-- Where the sines and the imaginary parts change sign together, the imaginary part of `W·x[o]` does too. -/
theorem signTwin_twiddleIm {r r' i i' : Word} (hr : SignTwin false r r') (hi : SignTwin flip i i') :
    SignTwin flip (twiddleIm c s r i) (twiddleIm c' s' r' i') := by
  have hre := signTwin_fmul32 hs hr
  have him := signTwin_fmul32 hc hi
  rw [Bool.xor_false] at hre
  rw [Bool.false_xor] at him
  exact signTwin_fsub32 him hre

variable {e o j : Nat} (hro : SignTwin false (readAt z.re o) (readAt z'.re o))
  (hio : SignTwin flip (readAt z.im o) (readAt z'.im o))
include hro hio

theorem signTwin_butterfly_re (he : SignTwin false (readAt z.re e) (readAt z'.re e))
    (hj : SignTwin false (readAt z.re j) (readAt z'.re j)) :
    SignTwin false (readAt (butterfly e o c s z).re j) (readAt (butterfly e o c' s' z').re j) := by
  have htwiddle := signTwin_twiddleRe hc hs hro hio
  rw [readAt_butterfly_re, readAt_butterfly_re]
  split_ifs
  · exact signTwin_fadd32 he htwiddle
  · exact signTwin_fsub32 he htwiddle
  · exact hj

theorem signTwin_butterfly_im (he : SignTwin flip (readAt z.im e) (readAt z'.im e))
    (hj : SignTwin flip (readAt z.im j) (readAt z'.im j)) :
    SignTwin flip (readAt (butterfly e o c s z).im j) (readAt (butterfly e o c' s' z').im j) := by
  have htwiddle := signTwin_twiddleIm hc hs hro hio
  rw [readAt_butterfly_im, readAt_butterfly_im]
  split_ifs
  · exact signTwin_fadd32 he htwiddle
  · exact signTwin_fsub32 he htwiddle
  · exact hj

end

/-! ## Spectra of twins -/

/-- The real parts agree up to the sign of zeros, and the imaginary parts agree or, with `flip`, are negated, up to
the sign of zeros. -/
structure SpectrumTwin (flip : Bool) (z z' : Spectrum) : Prop where
  re : ∀ i, SignTwin false (readAt z.re i) (readAt z'.re i)
  im : ∀ i, SignTwin flip (readAt z.im i) (readAt z'.im i)

section
variable {flip : Bool} {z z' : Spectrum} {w w' : Vector Word 256}

theorem SpectrumTwin.butterfly (h : SpectrumTwin flip z z') {c c' s s' : Word} (hc : SignTwin false c c')
    (hs : SignTwin flip s s') (e o : Nat) : SpectrumTwin flip (butterfly e o c s z) (butterfly e o c' s' z') :=
  ⟨fun i => signTwin_butterfly_re hc hs (h.re o) (h.im o) (h.re e) (h.re i),
    fun i => signTwin_butterfly_im hc hs (h.re o) (h.im o) (h.im e) (h.im i)⟩

theorem SpectrumTwin.pass (h : SpectrumTwin false z z') (size : Nat) :
    SpectrumTwin false (pass z size) (pass z' size) :=
  List.foldl_rel h fun _ _ _ _ h => h.butterfly (.refl _) (.refl _) _ _

theorem isFinite_tws {m : Nat} (hm : m < 128) : isFinite (tws m) = true :=
  getD_of_all twsRomTable_length (by decide +kernel) hm

/-- A pass with the opposite twiddle sign takes conjugates to the conjugates (R217). -/
theorem SpectrumTwin.passConj (h : SpectrumTwin true z z') {size : Nat} (hsize : size ∈ passSizes) :
    SpectrumTwin true ((passIndices size).foldl (passButterflyConj size) z) (Machine.pass z' size) :=
  List.foldl_rel h fun _ hjk _ _ h =>
    h.butterfly (.refl _) (signTwin_flipSign_left (isNaN_of_isFinite (isFinite_tws (twiddleIndex_lt hsize hjk)))) _ _

theorem SpectrumTwin.magnitudes_eq (h : SpectrumTwin flip z z') : magnitudes z = magnitudes z' :=
  eq_of_readAt fun i hi => by
    rw [readAt_magnitudes z hi, readAt_magnitudes z' hi, fmag32_eq_of_signTwin (h.re i) (h.im i)]

theorem spectrumTwin_permuted (h : ∀ i < 256, SignTwin false (readAt w i) (readAt w' i)) :
    SpectrumTwin flip (permuted w) (permuted w') where
  re i := by
    by_cases hi : i < 256
    · rw [readAt_permuted_re w hi, readAt_permuted_re w' hi]
      exact h _ (BitVec.isLt _)
    · exact signTwin_readAt_of_ge _ _ (not_lt.mp hi)
  im i := by
    rw [readAt_permuted_im, readAt_permuted_im]
    exact .of_isZero (by decide) (by decide)

theorem spectrumTwin_analyse {x y : Vector Word 256}
    (h : ∀ i < 256, SignTwin false (readAt (windowed x) i) (readAt (windowed y) i)) :
    SpectrumTwin false (analyse x) (analyse y) := by
  unfold analyse transform
  exact List.foldl_rel (spectrumTwin_permuted h) fun size _ _ _ h => h.pass size

theorem spectrumTwin_analyseConj (x : Vector Word 256) : SpectrumTwin true (analyseConj x) (analyse x) := by
  unfold analyse transform
  exact List.foldl_rel (spectrumTwin_permuted fun _ _ => .refl _) fun _ hsize _ _ h => h.passConj hsize

end

/-- Settles O47: the transform with the other sign runs through the conjugates, and magnitudes see no sign. -/
theorem twiddleSignDoesNotShowInMagnitudes : Obligations.TwiddleSignDoesNotShowInMagnitudes := by
  intro x
  have htwin := spectrumTwin_analyseConj x
  exact ⟨htwin.magnitudes_eq, congrArg bins htwin.magnitudes_eq,
    fun m _ => ⟨SignTwin.false_iff.mp (htwin.re m), SignTwin.true_iff.mp (htwin.im m)⟩⟩

/-! ## A zero in a product or a sum -/

theorem isZero_fmul32 {a b : Word} (ha : isFinite a = true) (hb : isFinite b = true)
    (hzero : isZero a = true ∨ isZero b = true) : isZero (fmul32 a b).w = true := by
  have hsig : significand a * significand b = 0 := by
    rw [Nat.mul_eq_zero, significand_eq_zero_iff, significand_eq_zero_iff]
    exact hzero
  rw [fmul32_of_isFinite ha hb, hsig]
  exact isZero_roundFp_zero _ _

theorem isFinite_of_isZero {w : Word} (h : isZero w = true) : isFinite w = true := by
  simp_all [isZero, isFinite]

theorem isZero_fadd32_of_isZero {a b : Word} (ha : isZero a = true) (hb : isZero b = true) :
    isZero (fadd32 a b).w = true := by
  have hsum : val a + val b = 0 := by rw [val_eq_zero_of_isZero ha, val_eq_zero_of_isZero hb, add_zero]
  rw [fadd32_of_zero_sum (isFinite_of_isZero ha) (isFinite_of_isZero hb) hsum]
  split <;> decide

/-- `+0` plus a zero of either sign is `+0` (R175). -/
theorem fadd32_posZero_of_isZero {a : Word} (ha : isZero a = true) : (fadd32 0x00000000#32 a).w = 0x00000000#32 := by
  rw [eq_zeroWord_of_isZero ha]
  cases fpSign a <;> decide

theorem hann_zero : hann 0 = 0x00000000#32 := rfl

theorem isFinite_hann {i : Nat} (hi : i < 256) : isFinite (hann i) = true :=
  getD_of_all hannRomTable_length (by decide +kernel) hi

/-! ## The first sample (R222) -/

/-- The window multiplies a finite first sample by `+0`. -/
theorem isZero_windowed_zero {x : Vector Word 256} (h : isFinite (readAt x 0) = true) :
    isZero (readAt (windowed x) 0) = true := by
  rw [readAt_windowed x (by decide)]
  exact isZero_fmul32 h (isFinite_hann (by decide)) (.inr (by decide))

/-- Settles O45: a finite first sample is windowed to a zero, and the signs of zeros stay signs of zeros. -/
theorem finiteFirstSampleDoesNotShow : Obligations.FiniteFirstSampleDoesNotShow := by
  intro x y hx hy hxy
  have htwin : SpectrumTwin false (analyse x) (analyse y) := spectrumTwin_analyse fun i hi => by
    by_cases h0 : i = 0
    · rw [h0]
      exact .of_isZero (isZero_windowed_zero hx) (isZero_windowed_zero hy)
    · rw [readAt_windowed x hi, readAt_windowed y hi, hxy i hi h0]
      exact .refl _
  exact ⟨htwin.magnitudes_eq, congrArg bins htwin.magnitudes_eq,
    fun m _ => ⟨SignTwin.false_iff.mp (htwin.re m), SignTwin.false_iff.mp (htwin.im m)⟩⟩

end Sys2Proof.Machine
end

section
/-! PROOFS. Frames of zeros, and an infinite or NaN first sample (R220, R222): runs in which whole arrays
of words are known. -/

namespace Sys2Proof.Machine

/-! ## Equal magnitudes in the bins -/

/-- A bin of equal magnitudes is `+0` if their mean is clamped to `+0`, for one of them and for two. -/
theorem bin_eq_zero_of_const {mag : Vector Word 128} {m : Word} (hm : isMagnitude m = true)
    (hmag : ∀ j < 128, readAt mag j = m) (hone : (fclamp01 (fmul32 m fourWord).w).w = 0x00000000#32)
    (htwo : (fclamp01 (fmul32 (fdiv32 (fadd32 m m).w 0x40000000#32).w fourWord).w).w = 0x00000000#32)
    {i : Nat} (hi : i < 128) : readAt (bins mag) i = 0x00000000#32 := by
  have hend := binStart_add_binCount_le hi
  have hcount := binCount_le_two hi
  rw [readAt_bins mag hi]
  obtain h | h | h : binCount i = 0 ∨ binCount i = 1 ∨ binCount i = 2 := by omega
  · exact bin_of_count_zero h
  · have hs := hmag (binStart i) (by omega)
    rw [bin_of_count_one h (hs ▸ hm), hs, hone]
  · have hs := hmag (binStart i) (by omega)
    rw [bin_of_count_two h (hs ▸ hm), hs, hmag (binStart i + 1) (by omega), htwo]

/-! ## Zero frames (R220) -/

/-- Every word of the spectrum is `+0`. -/
def ZeroSpectrum (z : Spectrum) : Prop :=
  ∀ i, readAt z.re i = 0x00000000#32 ∧ readAt z.im i = 0x00000000#32

section
variable {c s : Word} (hc : isFinite c = true) (hs : isFinite s = true)
include hc hs

theorem isZero_twiddle_zero : isZero (twiddleRe c s 0x00000000#32 0x00000000#32) = true ∧
    isZero (twiddleIm c s 0x00000000#32 0x00000000#32) = true := by
  have hzero {w : Word} (hw : isFinite w = true) : isZero (fmul32 w 0x00000000#32).w = true :=
    isZero_fmul32 hw (by decide) (.inr (by decide))
  exact ⟨isZero_fadd32_of_isZero (hzero hc) (hzero hs),
    isZero_fadd32_of_isZero (hzero hc) ((isZero_flipSign _).trans (hzero hs))⟩

/-- `+0` plus or minus a zero of either sign is `+0`, so a butterfly of `+0` words answers `+0` words. -/
theorem ZeroSpectrum.butterfly {z : Spectrum} (h : ZeroSpectrum z) (e o : Nat) :
    ZeroSpectrum (butterfly e o c s z) := by
  obtain ⟨hre, him⟩ := isZero_twiddle_zero hc hs
  have hsub {t : Word} (ht : isZero t = true) : (fsub32 0x00000000#32 t).w = 0x00000000#32 :=
    fadd32_posZero_of_isZero ((isZero_flipSign t).trans ht)
  intro i
  rw [readAt_butterfly_re, readAt_butterfly_im, (h e).1, (h e).2, (h o).1, (h o).2, (h i).1, (h i).2,
    fadd32_posZero_of_isZero hre, fadd32_posZero_of_isZero him, hsub hre, hsub him]
  simp only [ite_self, and_self]

end

theorem ZeroSpectrum.pass {z : Spectrum} (h : ZeroSpectrum z) {size : Nat} (hsize : size ∈ passSizes) :
    ZeroSpectrum (pass z size) :=
  List.foldlRecOn _ _ h fun _ h _ hjk =>
    h.butterfly (isFinite_twc (twiddleIndex_lt hsize hjk)) (isFinite_tws (twiddleIndex_lt hsize hjk)) _ _

/-- The window takes `+0` to `+0`: no coefficient has a sign. -/
theorem fmul32_posZero_hann {i : Nat} (hi : i < 256) : (fmul32 0x00000000#32 (hann i)).w = 0x00000000#32 := by
  have hle : hann i ≤ 0x7F800000#32 := BitVec.le_trans (hann_le_one hi) (by decide)
  have hsign := fpSign_of_isMagnitude (isMagnitude_of_le hle)
  have hzero := isZero_fmul32 (a := 0x00000000#32) (by decide) (isFinite_hann hi) (.inl (by decide))
  rw [eq_zeroWord_of_isZero hzero, fpSign_fmul32 (isNaN_of_isZero hzero), hsign]
  decide

theorem zeroSpectrum_analyse {x : Vector Word 256} (h : ∀ i < 256, readAt x i = 0x00000000#32) :
    ZeroSpectrum (analyse x) := by
  have hstart : ZeroSpectrum (permuted (windowed x)) := fun i => by
    refine ⟨?_, readAt_permuted_im _ i⟩
    by_cases hi : i < 256
    · have hrev := (rev8 (BitVec.ofNat 8 i)).isLt
      rw [readAt_permuted_re _ hi, readAt_windowed x hrev, h _ hrev, fmul32_posZero_hann hrev]
    · exact readAt_of_ge _ (not_lt.mp hi)
  exact List.foldlRecOn _ _ hstart fun _ h _ hsize => h.pass hsize

/-- A frame of zeros runs as the frame of `+0` words, up to the sign of zeros. -/
theorem magnitudes_analyse_of_isZero {x : Vector Word 256} (h : ∀ i < 256, isZero (readAt x i) = true) :
    ∀ m < 128, readAt (magnitudes (analyse x)) m = 0x00000000#32 := by
  intro m hm
  have hzeros : ∀ i < 256, readAt (Vector.replicate 256 0x00000000#32) i = 0x00000000#32 := by simp
  have htwin : SpectrumTwin false (analyse x) (analyse (Vector.replicate 256 0x00000000#32)) :=
    spectrumTwin_analyse fun i hi => by
      rw [readAt_windowed _ hi, readAt_windowed _ hi, hzeros i hi, fmul32_posZero_hann hi]
      exact .of_isZero (isZero_fmul32 (isFinite_of_isZero (h i hi)) (isFinite_hann hi) (.inl (h i hi))) (by decide)
  obtain ⟨hre, him⟩ := zeroSpectrum_analyse hzeros m
  rw [htwin.magnitudes_eq, readAt_magnitudes _ hm, hre, him]
  decide +kernel

/-- Settles O44: `+0` words stay `+0` through the passes, and zeros of either sign run as `+0` up to signs. -/
theorem zeroFrameGivesZeroResults : Obligations.ZeroFrameGivesZeroResults := fun x =>
  ⟨fun h m _ => zeroSpectrum_analyse h m, fun h m hm =>
    have hmag := magnitudes_analyse_of_isZero h
    ⟨hmag m hm, bin_eq_zero_of_const (by decide) hmag (by decide +kernel) (by decide +kernel) hm⟩⟩

/-! ## A first sample that is infinite or NaN (R222) -/

/-- Below position `n` the real parts of `z` are the canonical NaN; all its other words are those of `z'`, up to the
sign of zeros. -/
structure NanBelow (n : Nat) (z z' : Spectrum) : Prop where
  nan : ∀ j < n, readAt z.re j = qNaN
  re : ∀ j, n ≤ j → SignTwin false (readAt z.re j) (readAt z'.re j)
  im : ∀ j, SignTwin false (readAt z.im j) (readAt z'.im j)

/-- A butterfly with a NaN at `e` writes it to both its positions: `re[e]` is an operand of both sums (R206). -/
theorem readAt_butterfly_re_of_nan {e o j : Nat} (c s : Word) {z : Spectrum} (he : readAt z.re e = qNaN)
    (hj : j = e ∨ j = o) (hlt : j < 256) : readAt (butterfly e o c s z).re j = qNaN := by
  have hnan (b : Word) : (isNaN qNaN || isNaN b) = true := by
    rw [show isNaN qNaN = true by decide, Bool.true_or]
  rw [readAt_butterfly_re, he, fadd32_of_isNaN (hnan _), fsub32_of_isNaN (hnan _)]
  obtain rfl | rfl := hj <;> simp [hlt, nanResult]

/-- A pass of size `size` spreads the NaNs from the first half of its first group to the whole group. Its second
positions are never in that half, so no imaginary part of `W·x[o]` sees a NaN. -/
theorem NanBelow.pass {size : Nat} (hsize : size ∈ passSizes) {z z' : Spectrum} (h : NanBelow (size / 2) z z') :
    NanBelow size (pass z size) (pass z' size) := by
  obtain ⟨hpos, hhalf, hgroups, -⟩ := passSizes_arith hsize
  have hle : size ≤ 256 := Nat.le_of_dvd (by norm_num) (Dvd.intro_left _ hgroups)
  refine { nan := fun j hj => ?nan, re := fun j hj => ?re, im := fun j => ?im }
  case nan =>
    obtain ⟨jk, hjk, hmem⟩ := exists_pair hsize (hj.trans_le hle)
    obtain ⟨-, -, hk⟩ := (mem_passIndices_iff hsize).mp hjk
    have hstart := groupStart_eq_zero_or_le hsize hjk
    have hpositions := mem_positions.mp hmem
    rw [(readAt_pass hsize hjk hmem z).1]
    exact readAt_butterfly_re_of_nan _ _ (h.nan _ (by omega)) hpositions (hj.trans_le hle)
  case re =>
    by_cases hin : j < 256
    · obtain ⟨jk, hjk, hmem⟩ := exists_pair hsize hin
      have hstart := groupStart_eq_zero_or_le hsize hjk
      have hpositions := mem_positions.mp hmem
      rw [(readAt_pass hsize hjk hmem z).1, (readAt_pass hsize hjk hmem z').1]
      exact signTwin_butterfly_re (.refl _) (.refl _) (h.re _ (by omega)) (h.im _) (h.re _ (by omega))
        (h.re _ (by omega))
    · exact signTwin_readAt_of_ge _ _ (not_lt.mp hin)
  case im =>
    by_cases hin : j < 256
    · obtain ⟨jk, hjk, hmem⟩ := exists_pair hsize hin
      rw [(readAt_pass hsize hjk hmem z).2, (readAt_pass hsize hjk hmem z').2]
      exact signTwin_butterfly_im (.refl _) (.refl _) (h.re _ (by omega)) (h.im _) (h.im _) (h.im _)
    · exact signTwin_readAt_of_ge _ _ (not_lt.mp hin)

/-- `+0` times an infinite word or a NaN is a NaN (R174, R178). -/
theorem fmul32_posZero_of_not_isFinite {a : Word} (h : isFinite a = false) : (fmul32 a 0x00000000#32).w = qNaN := by
  by_cases hnan : isNaN a = true
  · rw [fmul32_of_isNaN (by rw [hnan, Bool.true_or])]
    rfl
  · rw [Bool.not_eq_true] at hnan
    have hinf : isInf a = true := by simp_all [isFinite, isNaN, isInf]
    rw [fmul32_inf hnan (by decide) (.inl hinf), show isZero 0x00000000#32 = true by decide, Bool.or_true]
    rfl

theorem rev8_zero : rev8 0#8 = 0#8 := by decide

/-- Only position 0 takes the first sample. -/
theorem rev8_ne_zero {i : Byte} (h : i ≠ 0#8) : rev8 i ≠ 0#8 := fun h0 =>
  h (by rw [← rev8_rev8 i, h0, rev8_zero])

theorem nanBelow_permuted {x : Vector Word 256} (h : isFinite (readAt x 0) = false) :
    NanBelow 1 (permuted (windowed x)) (permuted (windowed (writeAt x 0 0x00000000#32))) where
  nan j hj := by
    rw [Nat.lt_one_iff.mp hj, readAt_permuted_re _ (by decide), rev8_zero, BitVec.toNat_zero,
      readAt_windowed x (by decide), hann_zero, fmul32_posZero_of_not_isFinite h]
  re j hj := by
    by_cases hin : j < 256
    · have hrev := (rev8 (BitVec.ofNat 8 j)).isLt
      have hne : 0 ≠ (rev8 (BitVec.ofNat 8 j)).toNat := fun h0 =>
        rev8_ne_zero (by bv_omega) (BitVec.eq_of_toNat_eq h0.symm)
      rw [readAt_permuted_re _ hin, readAt_permuted_re _ hin, readAt_windowed _ hrev, readAt_windowed _ hrev,
        readAt_writeAt_ne _ _ hne]
      exact .refl _
    · exact signTwin_readAt_of_ge _ _ (not_lt.mp hin)
  im j := by
    rw [readAt_permuted_im, readAt_permuted_im]
    exact .refl _

theorem nanBelow_analyse {x : Vector Word 256} (h : isFinite (readAt x 0) = false) :
    NanBelow 256 (analyse x) (analyse (writeAt x 0 0x00000000#32)) := by
  have h2 := (nanBelow_permuted h).pass (size := 2) (by decide)
  have h4 := h2.pass (size := 4) (by decide)
  have h8 := h4.pass (size := 8) (by decide)
  have h16 := h8.pass (size := 16) (by decide)
  have h32 := h16.pass (size := 32) (by decide)
  have h64 := h32.pass (size := 64) (by decide)
  have h128 := h64.pass (size := 128) (by decide)
  rw [analyse_eq_passes, analyse_eq_passes]
  exact h128.pass (by decide)

/-- Settles O46: the NaN of position 0 spreads over RE pass by pass and reaches no IM word; magnitudes of NaNs are NaN
and are clamped to `+0`. -/
theorem nonFiniteFirstSampleFillsReWithNan : Obligations.NonFiniteFirstSampleFillsReWithNan := by
  intro x hx
  have hnan := nanBelow_analyse hx
  have hmag : ∀ m < 128, readAt (magnitudes (analyse x)) m = qNaN := fun m hm => by
    rw [readAt_magnitudes _ hm, hnan.nan m (by omega), fmag32_of_isNaN (.inl (by decide))]
  exact ⟨fun m hm => ⟨hnan.nan m hm, SignTwin.false_iff.mp (hnan.im m)⟩,
    fun m hm => ⟨hmag m hm, bin_eq_zero_of_const isMagnitude_qNaN hmag (by decide) (by decide) hm⟩⟩

end Sys2Proof.Machine
end

section
/-! PROOFS. ERR and irq step by step (R261, R267, R270, R272): outside reset the causes of a changed flag or enable are
those of `NamedWrites`, and WR.STATUS and WR.CTRL say by their data what they leave. -/

namespace Sys2Proof.Machine

variable {s t : State}

/-! ## What one step does (R132, R133, R291) -/

/-- A reset edge leaves no error and irq low. -/
theorem step_of_reset (hreset : nextIsReset s = true) (ht : step s = .next t) :
    t.err = false ∧ t.ecode = 0#4 ∧ t.irq = false := by
  obtain ⟨hi, -⟩ | ⟨a, rest, hi, -⟩ | ⟨rest, hi, -⟩ | ⟨p, rest, -, rfl⟩ := step_cases ht
  · simp [nextIsReset, hi] at hreset
  · simp [nextIsReset, hi] at hreset
  · simp [nextIsReset, hi] at hreset
  · obtain h | ⟨-, h⟩ := resetEdge_cases p { s with inputs := rest } <;> rw [h] <;> exact ⟨rfl, rfl, rfl⟩

/-- A step whose event is an access runs the operation it decodes to. -/
theorem exec_of_nextInstr {i : Instr} (hi : nextInstr s = some i) (ht : step s = .next t) :
    ∃ rest, exec i { s with inputs := rest } = .next t := by
  obtain ⟨hin, -⟩ | ⟨a, rest, hin, hexec⟩ | ⟨rest, hin, -⟩ | ⟨p, rest, hin, -⟩ := step_cases ht <;>
    simp only [nextInstr, hin, reduceCtorEq, Option.some.injEq] at hi
  exact ⟨rest, hi ▸ hexec⟩

/-- A W1C of ERR leaves it 0, whatever it was. -/
theorem step_wrStatus_err {v : Word} (hbit : v.getLsbD 2 = true) (hi : nextInstr s = some (.wrStatus v))
    (ht : step s = .next t) : t.err = false := by
  obtain ⟨rest, hexec⟩ := exec_of_nextInstr hi ht
  rw [exec_wrStatus, hbit] at hexec
  cases hexec
  exact Bool.and_false _

theorem step_wrCtrl_enables {v : Word} (hi : nextInstr s = some (.wrCtrl v)) (ht : step s = .next t) :
    t.ie = v.getLsbD 0 ∧ t.eie = v.getLsbD 1 := by
  obtain ⟨rest, hexec⟩ := exec_of_nextInstr hi ht
  cases hexec
  exact ⟨rfl, rfl⟩

/-- A changed enable was written by WR.CTRL. -/
theorem wrCtrl_of_enable_ne (hreset : nextIsReset s = false) (ht : step s = .next t)
    (hne : t.ie ≠ s.ie ∨ t.eie ≠ s.eie) :
    ∃ v : Word, nextInstr s = some (.wrCtrl v) ∧ t.ie = v.getLsbD 0 ∧ t.eie = v.getLsbD 1 := by
  obtain ⟨v, hv⟩ := (namedWrites_step ht hreset).ctrl hne
  exact ⟨v, hv, step_wrCtrl_enables hv ht⟩

/-! ## The first error (R261, R270, R272) -/

/-- Settles O50: ECODE changes only with ERR rising, which ERR = 1 excludes, or by a W1C of ERR, which leaves both 0. -/
theorem firstErrorStaysUntilCleared : Obligations.FirstErrorStaysUntilCleared := by
  intro s t herr ht
  cases hreset : nextIsReset s with
  | true =>
    obtain ⟨herr', hecode, -⟩ := step_of_reset hreset ht
    exact .inr ⟨herr', hecode, .inl rfl⟩
  | false =>
    have hnamed := namedWrites_step ht hreset
    cases herr' : t.err with
    | false =>
      obtain ⟨hecode, hw1c⟩ := hnamed.errCleared herr herr'
      exact .inr ⟨rfl, hecode, .inr hw1c⟩
    | true =>
      refine .inl ⟨rfl, by_contra fun hne => ?_⟩
      obtain ⟨hclear, -⟩ | ⟨v, hv, hbit⟩ := hnamed.ecode hne
      · simp [herr] at hclear
      · simp [step_wrStatus_err hbit hv ht] at herr'

/-! ## irq (R267) -/

theorem irq_iff (s : State) : s.irq = true ↔ (s.ie = true ∧ s.done = true) ∨ (s.eie = true ∧ s.err = true) := by
  simp [State.irq]

theorem irq_eq_false_iff (s : State) :
    s.irq = false ↔ (s.ie = true → s.done = false) ∧ (s.eie = true → s.err = false) := by
  simp [State.irq]

/-- What was high is low through its flag or through its enable. -/
theorem irq_falls_cases (hreset : nextIsReset s = false) (ht : step s = .next t) (hhigh : s.irq = true)
    (hlow : t.irq = false) :
    nextInstr s = some .start ∨ ∃ v : Word,
      (nextInstr s = some (.wrStatus v) ∧ (v.getLsbD 1 = true ∨ v.getLsbD 2 = true)) ∨
      (nextInstr s = some (.wrCtrl v) ∧
        ((s.ie = true ∧ v.getLsbD 0 = false) ∨ (s.eie = true ∧ v.getLsbD 1 = false))) := by
  have hnamed := namedWrites_step ht hreset
  obtain ⟨hdoneLow, herrLow⟩ := (irq_eq_false_iff t).mp hlow
  obtain ⟨hie, hdone⟩ | ⟨heie, herr⟩ := (irq_iff s).mp hhigh
  · cases hie' : t.ie with
    | true =>
      obtain ⟨-, hstart⟩ | ⟨v, hv, hbit⟩ := hnamed.doneCleared hdone (hdoneLow hie')
      · exact .inl hstart
      · exact .inr ⟨v, .inl ⟨hv, .inl hbit⟩⟩
    | false =>
      obtain ⟨v, hv, hbit, -⟩ := wrCtrl_of_enable_ne hreset ht (.inl (by simp [hie, hie']))
      exact .inr ⟨v, .inr ⟨hv, .inl ⟨hie, hbit ▸ hie'⟩⟩⟩
  · cases heie' : t.eie with
    | true =>
      obtain ⟨-, v, hv, hbit⟩ := hnamed.errCleared herr (herrLow heie')
      exact .inr ⟨v, .inl ⟨hv, .inr hbit⟩⟩
    | false =>
      obtain ⟨v, hv, -, hbit⟩ := wrCtrl_of_enable_ne hreset ht (.inr (by simp [heie, heie']))
      exact .inr ⟨v, .inr ⟨hv, .inr ⟨heie, hbit ▸ heie'⟩⟩⟩

/-- What was low is high through its flag, or, where the flag was 1, through its enable. -/
theorem irq_rises_cases (hreset : nextIsReset s = false) (ht : step s = .next t) (hlow : s.irq = false)
    (hhigh : t.irq = true) :
    (nextCompletes s = true ∧ t.done = true) ∨ (s.err = false ∧ t.err = true) ∨
    ∃ v : Word, nextInstr s = some (.wrCtrl v) ∧
      ((s.done = true ∧ s.ie = false ∧ v.getLsbD 0 = true) ∨
       (s.err = true ∧ s.eie = false ∧ v.getLsbD 1 = true)) := by
  have hnamed := namedWrites_step ht hreset
  obtain ⟨hdoneLow, herrLow⟩ := (irq_eq_false_iff s).mp hlow
  obtain ⟨hie', hdone'⟩ | ⟨heie', herr'⟩ := (irq_iff t).mp hhigh
  · cases hdone : s.done with
    | false => exact .inl ⟨hnamed.doneSet hdone hdone', hdone'⟩
    | true =>
      have hie : s.ie = false := by simpa [hdone] using hdoneLow
      obtain ⟨v, hv, hbit, -⟩ := wrCtrl_of_enable_ne hreset ht (.inl (by simp [hie, hie']))
      exact .inr (.inr ⟨v, hv, .inl ⟨rfl, hie, hbit ▸ hie'⟩⟩)
  · cases herr : s.err with
    | false => exact .inr (.inl ⟨rfl, herr'⟩)
    | true =>
      have heie : s.eie = false := by simpa [herr] using herrLow
      obtain ⟨v, hv, -, hbit⟩ := wrCtrl_of_enable_ne hreset ht (.inr (by simp [heie, heie']))
      exact .inr (.inr ⟨v, hv, .inr ⟨rfl, heie, hbit ▸ heie'⟩⟩)

/-- STATUS.IRQ reads the irq level. -/
theorem readWord_status_irq (s : State) : (s.readWord (wordAddr 0x000C)).getLsbD 3 = s.irq := by
  obtain ⟨-, -, -, hirq⟩ := statusWord_flags s
  rw [readWord_wordAddr s (by decide) (by decide)]
  exact hirq

/-- Settles O51: irq is a function of two flags and two enables, and each change of one of these four has its named
causes; a reset edge lowers irq. -/
theorem irqChangesOnlyByItsCauses : Obligations.IrqChangesOnlyByItsCauses := by
  refine ⟨fun s => ⟨rfl, readWord_status_irq s⟩, fun s t ht => ?_⟩
  cases hreset : nextIsReset s with
  | true =>
    obtain ⟨-, -, hirq⟩ := step_of_reset hreset ht
    exact ⟨fun _ _ => .inl rfl, fun _ hhigh => by simp [hirq] at hhigh⟩
  | false => exact ⟨fun hhigh hlow => .inr (irq_falls_cases hreset ht hhigh hlow), irq_rises_cases hreset ht⟩

end Sys2Proof.Machine
end

section
/-! PROOFS. Hazards and reset (R291, R293, R294, R296): while BUSY every CMD row and every feed is rejected and every
operation keeps the run, and a reset edge is `resetRegisters` up to the word it answers a read with. -/

namespace Sys2Proof.Machine

variable {s : State}

/-! ## Writes while BUSY (R296) -/

/-- The ten CMD rows are the rows of the ten commands. -/
theorem exec_commandRow_of_running (hrun : s.phase = .running) :
    ∀ i ∈ [Instr.nop, .clear, .start, .fpopFadd, .fpopFsub, .fpopFmul, .fpopFdiv, .fpopFsqrt, .fpopFmag, .fpopFclamp],
      exec i s = .next (withErrorRecorded 4#4 s) :=
  List.forall_mem_map (f := commandInstr) (l := [.nop, .clear, .start, .fpop .fadd, .fpop .fsub, .fpop .fmul,
    .fpop .fdiv, .fpop .fsqrt, .fpop .fmag, .fpop .fclamp]) |>.mpr fun c _ => exec_commandInstr_of_running hrun c

theorem exec_feedB_of_running (hrun : s.phase = .running) (v : Word) :
    exec (.feedB v) s = .next (withErrorRecorded 5#4 s) := by
  rw [exec_feedB, whenIdle_feedBusy_of_running hrun]

theorem exec_feedW_of_running (hrun : s.phase = .running) (v : Word) :
    exec (.feedW v) s = .next (withErrorRecorded 5#4 s) := by
  rw [exec_feedW, whenIdle_feedBusy_of_running hrun]

/-- Settles O17: one rejection for CMD and one for the feeds; every operation, so each write that is accepted, completes
and keeps the run. -/
theorem commandsAndFeedsAreRejectedWhileBusy : Obligations.CommandsAndFeedsAreRejectedWhileBusy := by
  refine fun s hrun => ⟨exec_wrCmd_of_running hrun, exec_commandRow_of_running hrun,
    fun v => ⟨exec_feedB_of_running hrun v, exec_feedW_of_running hrun v⟩, fun _ i _ => ?accepted⟩
  case accepted =>
    obtain ⟨t, ht⟩ := exec_completes i s
    have hkeep := keepsRun_exec hrun ht
    exact ⟨t, ht, hkeep.phase.trans hrun, hkeep.sample, hkeep.byteCount⟩

/-! ## The reset edge (R291, R293, R294) -/

theorem step_rst {p : Option BusAccess} {rest : List Event} (h : s.inputs = .rst p :: rest) :
    step s = .next (resetEdge p { s with inputs := rest }) := by
  simp only [step, h]

/-- Whatever access is presented, a reset edge differs from `resetRegisters` in the word answered at most. -/
theorem exists_resetEdge_eq (p : Option BusAccess) (s : State) :
    ∃ w : Word, resetEdge p s = { resetRegisters s with rdata := w } := by
  obtain h | ⟨-, h⟩ := resetEdge_cases p s <;> exact ⟨_, h⟩

/-- Settles O53: the registers are those of `resetRegisters`; a read is answered by 0, and an edge with a write is the
edge without it. -/
theorem resetEdgeSetsTheRegisters : Obligations.ResetEdgeSetsTheRegisters := by
  intro s presented rest hi
  obtain ⟨w, hedge⟩ := exists_resetEdge_eq presented { s with inputs := rest }
  refine ⟨{ resetRegisters { s with inputs := rest } with rdata := w }, by rw [step_rst hi, hedge],
    rfl, rfl, rfl, rfl, rfl, rfl, rfl, rfl, rfl, rfl, rfl, rfl, rfl, rfl, rfl,
    readWord_wordAddr _ (by decide) (by decide), readWord_wordAddr _ (by decide) (by decide), ?read, ?write⟩
  case read =>
    rintro a rfl
    exact (congrArg State.rdata hedge).symm
  case write =>
    rintro a v rfl
    exact congrArg Host.Outcome.next hedge

end Sys2Proof.Machine
end
